-- ==== Sys2Proof/Word.lean ====
section
/-! DEFINITION. The value types of the block: a byte and a byte sequence (spec R9).

Lengths and indexes are natural numbers (R9, R104); only what the spec treats as bits is a bit vector. -/

namespace Sys2Proof

/-- R9: "A *byte* is an unsigned integer 0..255"; R61: an 8-bit unsigned value on every port. -/
abbrev Byte := BitVec 8

/-- R9: a byte sequence; index 0 is the byte that arrived first on the stream or was written first. -/
abbrev Bytes := List Byte

end Sys2Proof
end

