-- ==== Sys2Proof/Config.lean ====
section
/-! DEFINITION. What is fixed for the machine: the wire constants of R6 (each literal once, by name, as
R2 asks), the parameters of R7, and the two collaborator functions of R7 as free values. -/

namespace Sys2Proof

/-- R6: `HEADER_LEN`, the length of the inform header in bytes. -/
def Config.headerLen : Nat := 40

/-- R6: the width of magic in bytes. -/
def Config.magicLen : Nat := 4

/-- R6: the width of packetVersion in bytes. -/
def Config.pverLen : Nat := 4

/-- R6: the width of deviceIdentity in bytes. -/
def Config.devidLen : Nat := 6

/-- R6: the width of flags in bytes. -/
def Config.flagsLen : Nat := 2

/-- R6: `IV_LEN`, the width of iv in bytes. -/
def Config.ivLen : Nat := 16

/-- R6: the width of payloadVersion in bytes. -/
def Config.plverLen : Nat := 4

/-- R6: the width of payloadLength in bytes. -/
def Config.plenLen : Nat := 4

/-- R67: the offset of packetVersion; the offsets are the running sum of the widths before a field. -/
def Config.pverAt : Nat := Config.magicLen

/-- R67: the offset of deviceIdentity. -/
def Config.devidAt : Nat := Config.pverAt + Config.pverLen

/-- R67: the offset of flags. -/
def Config.flagsAt : Nat := Config.devidAt + Config.devidLen

/-- R67: the offset of iv. -/
def Config.ivAt : Nat := Config.flagsAt + Config.flagsLen

/-- R67: the offset of payloadVersion. -/
def Config.plverAt : Nat := Config.ivAt + Config.ivLen

/-- R67: the offset of payloadLength. -/
def Config.plenAt : Nat := Config.plverAt + Config.plverLen

/-- R6, R105: `MAGIC`, the ASCII bytes of "UBNT" (their values are G1 of 93_implementation_defined.md). -/
def Config.magic : Bytes := [0x55#8, 0x42#8, 0x4E#8, 0x54#8]

/-- R6, R93: `FLAG_ENCRYPTED`. -/
def Config.flagEncrypted : BitVec 16 := 0x0001#16

/-- R6, R93: `FLAG_COMPRESSED`, the legacy scheme. -/
def Config.flagCompressed : BitVec 16 := 0x0002#16

/-- R6, R93: `FLAG_SNAPPY`. -/
def Config.flagSnappy : BitVec 16 := 0x0004#16

/-- R93: the bits of the flags that have a meaning; the others are R94's. -/
def Config.flagsDefined : BitVec 16 := Config.flagEncrypted ||| Config.flagCompressed ||| Config.flagSnappy

/-- R6, R147: `KEY_LEN`. -/
def Config.keyLen : Nat := 16

/-- R6, R148: `BLOCK`, the cipher block size in bytes. -/
def Config.block : Nat := 16

/-- R6, R96: `TRAILER_LEN`. -/
def Config.trailerLen : Nat := 10

/-- The parameters that R7 leaves to the implementation and that "the model takes as an argument". They
are plain data; State carries one record of them, which no step changes (log entry 2). `N_INST` is not
here: one State is one instance (log entry 3). -/
structure Params where
  /-- `MAX_PAYLOAD`: the largest declared payload length DECODE accepts. -/
  maxPayload : Nat
  /-- `MAX_OPERAND`: the capacity of IBUF. -/
  maxOperand : Nat
  /-- `MAX_RESULT`: the capacity of RBUF. -/
  maxResult : Nat
  /-- `KEY_MAX`: the capacity of the key register file in bytes. -/
  keyMax : Nat
  /-- `DESC_W`: the width in bits of a collaborator's failure description. -/
  descW : Nat
  deriving DecidableEq, Repr

/-- R7: the defaults. -/
def Params.default : Params :=
  { maxPayload := 2 ^ 32 - 1, maxOperand := 2 ^ 32 - 1, maxResult := 2 ^ 32 - 1, keyMax := 32, descW := 32 }

/-- R7: the ranges of the parameters. That MAX_OPERAND and MAX_RESULT are at most `2^32 - 1` is DEDUCED
from the 32-bit length registers ILEN (R27) and RLEN (R30) and from R104 (log entry 2). -/
def Params.wf (p : Params) : Bool :=
  1 ≤ p.maxPayload && p.maxPayload ≤ 2 ^ 32 - 1 &&
  Config.headerLen ≤ p.maxOperand && p.maxOperand ≤ 2 ^ 32 - 1 &&
  p.maxPayload ≤ p.maxResult && p.maxResult ≤ 2 ^ 32 - 1 &&
  32 ≤ p.keyMax && p.keyMax ≤ 255

/-- R198: the decompressor's answer, `ok(out)` or `fail(desc)`. -/
inductive DcmpAnswer where
  /-- The decompressed bytes, any length including 0. -/
  | ok (out : Bytes)
  /-- The opaque failure description. -/
  | fail (desc : Nat)
  deriving DecidableEq, Repr, Inhabited

/-- FREE VALUE (U14, log entry 4): byte `i` of what the cipher collaborator answers to `(key, iv, ct)`. -/
opaque Config.cbcByte (key iv ct : Bytes) (i : Nat) : Byte

/-- R7, R196: the cipher collaborator's function `cbcDecrypt`: a total function of the request alone
whose answer has the request's length; nothing else is known of it. -/
def Config.cbcDecrypt (key iv ct : Bytes) : Bytes :=
  (List.range ct.length).map (Config.cbcByte key iv ct)

/-- R7, R198, FREE VALUE (U14, log entry 4): the decompressor collaborator's function `decompress`: a
total function of the request alone; nothing else is known of it. -/
opaque Config.decompress (data : Bytes) : DcmpAnswer

end Sys2Proof
end

