-- ==== Sys2Proof/Syntax.lean ====
section
/-! DEFINITION. The instructions: one constructor per row of spec/opcode_table.json.

The block has three kinds of code words (R1, R97, R101, R90): the 8-bit command a host writes (`CMD8`), the
16-bit flags of the stored Packet, "a second-level opcode that selects pipeline stages" (`FLAGS16`), and the
40-byte header that a source answers to `SrcRead(40)` (`HDR40`). -/

namespace Sys2Proof

/-- R92: the decoded fields of a header, less the magic, which has one legal value. -/
structure Header where
  /-- packetVersion -/
  pver : BitVec 32
  /-- deviceIdentity, 6 raw bytes -/
  devid : Bytes
  /-- flags, all 16 bits as received (R36) -/
  flags : BitVec 16
  /-- iv, 16 raw bytes -/
  iv : Bytes
  /-- payloadVersion -/
  plver : BitVec 32
  /-- payloadLength -/
  plen : BitVec 32
  deriving DecidableEq, Repr

/-- The instructions. The operand `rest` of a second-level opcode is the flags less the three defined
bits, that is `PKT.FLAGS & 0xFFF8`, kept and never tested (R94). -/
inductive Instr where
  /-- PARSE, R121 -/
  | parse
  /-- DECODE, R131 -/
  | decode
  /-- DECRYPT, R146 -/
  | decrypt
  /-- UNPAD, R161 -/
  | unpad
  /-- RESOLVE, R171 -/
  | resolve
  /-- ILLEGAL.OP0, R99 -/
  | illegalOp0
  /-- ILLEGAL.OP6, R99 -/
  | illegalOp6
  /-- ILLEGAL.OP7, R99 -/
  | illegalOp7
  /-- RESOLVE.F0, R101 row 0 -/
  | resolveF0 (rest : BitVec 16)
  /-- RESOLVE.F1, R101 row 1 -/
  | resolveF1 (rest : BitVec 16)
  /-- RESOLVE.F2, R101 row 2 -/
  | resolveF2 (rest : BitVec 16)
  /-- RESOLVE.F3, R101 row 3 -/
  | resolveF3 (rest : BitVec 16)
  /-- RESOLVE.F4, R101 row 4 -/
  | resolveF4 (rest : BitVec 16)
  /-- RESOLVE.F5, R101 row 5 -/
  | resolveF5 (rest : BitVec 16)
  /-- RESOLVE.F6, R101 row 6 -/
  | resolveF6 (rest : BitVec 16)
  /-- RESOLVE.F7, R101 row 7 -/
  | resolveF7 (rest : BitVec 16)
  /-- INFORM_HEADER, R120, R130 steps 2 to 4 -/
  | informHeader (h : Header)
  deriving DecidableEq, Repr

/-- A code word of one of the three formats. -/
inductive CodeWord where
  /-- `CMD8` (R97) -/
  | cmd (c : BitVec 8)
  /-- `FLAGS16` (R93, R101) -/
  | flags (f : BitVec 16)
  /-- `HDR40` (R90): the header bytes in stream order -/
  | header (h : Bytes)
  deriving DecidableEq, Repr

/-- Why the decoder rejects a code word. -/
inductive DecodeError where
  /-- R97, R99: `CMD[7:3] != 0`. -/
  | reservedBits (c : BitVec 8)
  /-- R90: a header is exactly 40 bytes. -/
  | headerLength (n : Nat)
  /-- R105: the first four bytes are not "UBNT". -/
  | badMagic (m : Bytes)
  deriving DecidableEq, Repr

end Sys2Proof
end

