-- ==== Sys2Proof/WellFormed.lean ====
section
/-! DEFINITION. Which instructions are well formed: the byte fields of a header have their fixed widths
(R6, R90), and what a second-level opcode carries beside its flags has none of the defined bits (R94). -/

namespace Sys2Proof

/-- R90: deviceIdentity is 6 bytes and iv is 16 bytes. -/
def Header.wf (h : Header) : Bool :=
  h.devid.length == Config.devidLen && h.iv.length == Config.ivLen

/-- R94: what stands beside the three defined flags has none of them. -/
def flagsRestWf (rest : BitVec 16) : Bool :=
  rest &&& Config.flagsDefined == 0#16

/-- A well-formed instruction: one the encoding tables of 30_encoding.md can express. -/
def Instr.wf : Instr → Bool
  | .parse => true
  | .decode => true
  | .decrypt => true
  | .unpad => true
  | .resolve => true
  | .illegalOp0 => true
  | .illegalOp6 => true
  | .illegalOp7 => true
  | .resolveF0 rest => flagsRestWf rest
  | .resolveF1 rest => flagsRestWf rest
  | .resolveF2 rest => flagsRestWf rest
  | .resolveF3 rest => flagsRestWf rest
  | .resolveF4 rest => flagsRestWf rest
  | .resolveF5 rest => flagsRestWf rest
  | .resolveF6 rest => flagsRestWf rest
  | .resolveF7 rest => flagsRestWf rest
  | .informHeader h => h.wf

end Sys2Proof
end

