-- ==== Sys2Proof/Decode.lean ====
section
/-! DEFINITION. The decoder from code words to instructions, and the encoder back (30_encoding.md). -/

namespace Sys2Proof

/-- R9, R60: the big-endian value of a byte sequence, the first byte the most significant. -/
def beNat (b : Bytes) : Nat :=
  b.foldl (fun n x => n * 2 ^ 8 + x.toNat) 0

/-- R9: `be16`, for `len(b) = 2`. -/
def be16 (b : Bytes) : BitVec 16 :=
  BitVec.ofNat 16 (beNat b)

/-- R9: `be32`, for `len(b) = 4`. -/
def be32 (b : Bytes) : BitVec 32 :=
  BitVec.ofNat 32 (beNat b)

/-- The `n` bytes of an unsigned integer, most significant first (R60). -/
def bytesOf : Nat → Nat → Bytes
  | 0, _ => []
  | n + 1, v => bytesOf n (v / 2 ^ 8) ++ [BitVec.ofNat 8 v]

/-- R9: `b[i..j)`. -/
def slice (b : Bytes) (i j : Nat) : Bytes :=
  (b.drop i).take (j - i)

/-- R105: whether the first four bytes are exactly the magic. -/
def magicMatches (h : Bytes) : Bool :=
  slice h 0 Config.pverAt == Config.magic

/-- R92: the fields of a 40-byte header at their fixed offsets. -/
def headerFields (h : Bytes) : Header :=
  { pver := be32 (slice h Config.pverAt Config.devidAt)
    devid := slice h Config.devidAt Config.flagsAt
    flags := be16 (slice h Config.flagsAt Config.ivAt)
    iv := slice h Config.ivAt Config.plverAt
    plver := be32 (slice h Config.plverAt Config.plenAt)
    plen := be32 (slice h Config.plenAt (Config.plenAt + Config.plenLen)) }

/-- R120: `parseHeader`, applied to 40 bytes only; `none` is `err(InvalidMagic, 0, 0)`. -/
def parseHeader (h : Bytes) : Option Header :=
  if magicMatches h then some (headerFields h) else none

/-- R97 to R99: the command word; `CMD[7:3]` must be 0 and `CMD[2:0]` is the operation code. -/
def decodeCommand (c : BitVec 8) : Except DecodeError Instr :=
  if c.extractLsb' 3 5 ≠ 0#5 then .error (.reservedBits c)
  else
    match c.getLsbD 2, c.getLsbD 1, c.getLsbD 0 with
    | false, false, false => .ok .illegalOp0
    | false, false, true => .ok .parse
    | false, true, false => .ok .decode
    | false, true, true => .ok .decrypt
    | true, false, false => .ok .unpad
    | true, false, true => .ok .resolve
    | true, true, false => .ok .illegalOp6
    | true, true, true => .ok .illegalOp7

/-- R93: flag `Encrypted` is set. -/
def isEncrypted (f : BitVec 16) : Bool :=
  f &&& Config.flagEncrypted != 0#16

/-- R93: flag `Compressed` is set. -/
def isCompressed (f : BitVec 16) : Bool :=
  f &&& Config.flagCompressed != 0#16

/-- R93: flag `SnappyCompressed` is set. -/
def isSnappy (f : BitVec 16) : Bool :=
  f &&& Config.flagSnappy != 0#16

/-- R94: what the flags hold beside the three defined bits. -/
def flagsRest (f : BitVec 16) : BitVec 16 :=
  f &&& ~~~Config.flagsDefined

/-- R101: the flags as a second-level opcode, by the columns Encrypted, Compressed, Snappy; the other bits are
an operand that is kept and never tested (R94). -/
def decodeFlags (f : BitVec 16) : Instr :=
  match isEncrypted f, isCompressed f, isSnappy f with
  | false, false, false => .resolveF0 (flagsRest f)
  | true, false, false => .resolveF1 (flagsRest f)
  | false, true, false => .resolveF2 (flagsRest f)
  | true, true, false => .resolveF3 (flagsRest f)
  | false, false, true => .resolveF4 (flagsRest f)
  | true, false, true => .resolveF5 (flagsRest f)
  | false, true, true => .resolveF6 (flagsRest f)
  | true, true, true => .resolveF7 (flagsRest f)

/-- R90, R105, R120: a header of exactly 40 bytes that begins with the magic. -/
def decodeHeader (h : Bytes) : Except DecodeError Instr :=
  if h.length ≠ Config.headerLen then .error (.headerLength h.length)
  else
    match parseHeader h with
    | some f => .ok (.informHeader f)
    | none => .error (.badMagic (slice h 0 Config.pverAt))

/-- The decoder: total on every code word, rejecting by name. -/
def decode : CodeWord → Except DecodeError Instr
  | .cmd c => decodeCommand c
  | .flags f => .ok (decodeFlags f)
  | .header h => decodeHeader h

/-- R90: the 40 bytes of a header with the magic and the given fields. -/
def encodeHeader (h : Header) : Bytes :=
  Config.magic ++ bytesOf Config.pverLen h.pver.toNat ++ h.devid ++ bytesOf Config.flagsLen h.flags.toNat ++ h.iv ++
    bytesOf Config.plverLen h.plver.toNat ++ bytesOf Config.plenLen h.plen.toNat

/-- The mask of a flag that is set, else nothing. -/
def maskIf (b : Bool) (m : BitVec 16) : BitVec 16 :=
  if b then m else 0#16

/-- R93, R101: a flags word from its ignored bits and its three defined ones, in the columns' order. -/
def encodeFlags (rest : BitVec 16) (encrypted compressed snappy : Bool) : BitVec 16 :=
  rest ||| maskIf encrypted Config.flagEncrypted ||| maskIf compressed Config.flagCompressed ||| maskIf snappy Config.flagSnappy

/-- The encoder, from the encoding columns of 30_encoding.md (R90, R98, R99, R101). -/
def encode : Instr → CodeWord
  | .parse => .cmd 0x01#8
  | .decode => .cmd 0x02#8
  | .decrypt => .cmd 0x03#8
  | .unpad => .cmd 0x04#8
  | .resolve => .cmd 0x05#8
  | .illegalOp0 => .cmd 0x00#8
  | .illegalOp6 => .cmd 0x06#8
  | .illegalOp7 => .cmd 0x07#8
  | .resolveF0 rest => .flags (encodeFlags rest false false false)
  | .resolveF1 rest => .flags (encodeFlags rest true false false)
  | .resolveF2 rest => .flags (encodeFlags rest false true false)
  | .resolveF3 rest => .flags (encodeFlags rest true true false)
  | .resolveF4 rest => .flags (encodeFlags rest false false true)
  | .resolveF5 rest => .flags (encodeFlags rest true false true)
  | .resolveF6 rest => .flags (encodeFlags rest false true true)
  | .resolveF7 rest => .flags (encodeFlags rest true true true)
  | .informHeader h => .header (encodeHeader h)

/-- R90: the 40 header bytes of the 320-bit number `H`; byte `i` is `H[319-8i : 312-8i]`. -/
def headerBytesOf (w : Nat) : Bytes :=
  bytesOf Config.headerLen w

/-- The code word of a row of opcode_table.json, its bits numbered as the table numbers them: an 8-bit
command, a 16-bit flags value, or the 320-bit big-endian number of R90. -/
def codeWordOf (nbits w : Nat) : Option CodeWord :=
  if w >>> nbits = 0 then
    if nbits = 8 then some (.cmd (BitVec.ofNat 8 w))
    else if nbits = 16 then some (.flags (BitVec.ofNat 16 w))
    else if nbits = 8 * Config.headerLen then some (.header (headerBytesOf w))
    else none
  else none

/-- The instruction the decoder reads from a word of the opcode table. -/
def decodeTableWord (nbits w : Nat) : Option Instr :=
  match codeWordOf nbits w with
  | some cw =>
    match decode cw with
    | .ok i => some i
    | .error _ => none
  | none => none

end Sys2Proof
end

