-- ==== Sys2Proof/Machine/State.lean ====
section
/-! DEFINITION. The state of one instance of the block (R20), with the agents around it as far as a step
reads them: the byte source's stream, the queue of what the outside does next, and the record of what the
outside observes. Everything is plain data. -/

namespace Sys2Proof.Machine

/-- R22: `STATUS`. The six defined bits; bits 7:6 are reserved and read as 0 (`Status.word`). -/
structure Status where
  /-- bit 0 `BUSY` -/
  busy : Bool
  /-- bit 1 `DONE` -/
  done : Bool
  /-- bit 2 `ERR` -/
  err : Bool
  /-- bit 3 `HDR_VALID` -/
  hdrValid : Bool
  /-- bit 4 `PKT_VALID` -/
  pktValid : Bool
  /-- bit 5 `RES_VALID` -/
  resValid : Bool
  deriving DecidableEq, Repr

/-- R24: `PHASE`. -/
inductive Phase where
  /-- no operation in progress -/
  | idle
  /-- a DECODE awaits the answer to `SrcRead(40)` -/
  | hdrRead
  /-- a DECODE awaits the answer to `SrcRead(L)` -/
  | payRead
  /-- a DECRYPT, or the decrypt stage of a RESOLVE, awaits the cipher -/
  | ciphWait
  /-- the snappy stage of a RESOLVE awaits the decompressor -/
  | dcmpWait
  deriving DecidableEq, Repr

/-- R3: the operations. R24 and R239 speak of the operation in progress while it waits, so State holds it
(DEDUCED, log entry 5). -/
inductive Oper where
  /-- PARSE -/
  | parse
  /-- DECODE -/
  | decode
  /-- DECRYPT -/
  | decrypt
  /-- UNPAD -/
  | unpad
  /-- RESOLVE -/
  | resolve
  deriving DecidableEq, Repr

/-- R33: a collaborator request. -/
inductive Request where
  /-- `SrcRead(n)` on port SRC (R63) -/
  | src (n : Nat)
  /-- `CiphCall(key, iv, ct)` on port CIPH (R196) -/
  | ciph (key iv ct : Bytes)
  /-- `DcmpCall(data)` on port DCMP (R198) -/
  | dcmp (data : Bytes)
  deriving DecidableEq, Repr

/-- R29: the packet group's fields, less PBUF. -/
structure PacketRegs where
  /-- `PKT.PVER` -/
  pver : BitVec 32
  /-- `PKT.PLVER` -/
  plver : BitVec 32
  /-- `PKT.DEVID`, 6 bytes -/
  devid : Bytes
  /-- `PKT.FLAGS`, all 16 bits as received -/
  flags : BitVec 16
  /-- `PKT.IV`, 16 bytes -/
  iv : Bytes
  /-- `PKT.PLEN`, the length of PBUF -/
  plen : BitVec 32
  deriving DecidableEq, Repr

/-- R42: the buffer spaces, as the host names them in `MemRead` and `MemWrite`. -/
inductive Space where
  /-- KEY: never readable (R38) -/
  | key
  /-- IBUF -/
  | ibuf
  /-- PBUF -/
  | pbuf
  /-- RBUF -/
  | rbuf
  /-- WBUF: hidden -/
  | wbuf
  /-- HBUF: hidden -/
  | hbuf
  deriving DecidableEq, Repr

/-- One act of the outside, in the order the acts reach the block (R8, R195; log entry 1). -/
inductive Input where
  /-- `HWR(reg, v)` (R190), by register number; a command issue is a one-byte write of register 0x00 -/
  | write (reg : BitVec 8) (v : Bytes)
  /-- `HRD(reg)` (R191), by register number -/
  | read (reg : BitVec 8)
  /-- `MemRead(space, a, n)` (R191) -/
  | memRead (space : Space) (a n : Nat)
  /-- `MemWrite(space, a, n, v)` with `n = len(v)` (R190) -/
  | memWrite (space : Space) (a : Nat) (v : Bytes)
  /-- the second half of the shorthand INSPECT (R103): RESOLVE, only if the DECODE before it succeeded -/
  | inspectResolve
  /-- reset is applied (R250); the source had consumed so many bytes for a `SrcRead` it has not answered, if one
  is outstanding (R251) -/
  | reset (consumed : Nat)
  /-- more bytes reach the source's stream; the block does not see it -/
  | arrive (b : Bytes)
  /-- the source answers `ok` with the next bytes of its stream (R63) -/
  | srcOk
  /-- the source answers `fail(desc)`, having consumed as many bytes as it chose (R63, U12, U13) -/
  | srcFail (desc consumed : Nat)
  /-- the cipher answers (R196) -/
  | ciphAnswer
  /-- the decompressor answers (R198) -/
  | dcmpAnswer
  deriving DecidableEq, Repr

/-- What a host read returns: an unsigned number or a byte sequence. -/
inductive Value where
  /-- a number register's value -/
  | num (n : Nat)
  /-- a byte sequence register's value -/
  | bytes (b : Bytes)
  deriving DecidableEq, Repr

/-- R199: the observable events of a run. -/
inductive Obs where
  /-- a host read of a register returned a value -/
  | read (reg : BitVec 8) (v : Value)
  /-- a host `MemRead` returned bytes -/
  | memRead (space : Space) (a n : Nat) (b : Bytes)
  /-- the block made a collaborator request -/
  | request (r : Request)
  deriving DecidableEq, Repr

/-- R218: the error outcomes, one constructor per row of the code table and reason. -/
inductive Err where
  /-- R210 `InvalidMagic(0, 0)` -/
  | invalidMagic
  /-- R211 `IncompletePacket(1, 0)`, "header too short" -/
  | headerTooShort
  /-- R211 `IncompletePacket(2, 0)`, "header does not define payload length" -/
  | noPayloadLength
  /-- R211 `IncompletePacket(3, desc)`, payload short read -/
  | payloadShort (desc : Nat)
  /-- R212 `InvalidKey(0, 0)` -/
  | invalidKey
  /-- R213 `InvalidPadding(1, 0)`, "no data" -/
  | noData
  /-- R213 `InvalidPadding(2, 0)`, "data is not padded" -/
  | notPadded
  /-- R213 `InvalidPadding(3, 0)`, "structure invalid" -/
  | structureInvalid
  /-- R214 `UnsupportedFlag(1, 0)`, "compressed" -/
  | compressedFlag
  /-- R215 `DecompressFailure(1, desc)` -/
  | decompressFailed (desc : Nat)
  /-- R215 `DecompressFailure(2, 0)`, input shorter than the trailer -/
  | shorterThanTrailer
  /-- R194 `Refused(1, 0)`, illegal command -/
  | illegalCommand
  /-- R194 `Refused(2, 0)`, PARSE length -/
  | parseLength
  /-- R194 `Refused(3, 0)`, no packet -/
  | noPacket
  /-- R194 `Refused(4, 0)`, capacity -/
  | capacity
  deriving DecidableEq, Repr

/-- R230: "*Fault of the model*: none is architected". There is no fault, and the empty type says so (safe). -/
inductive Fault where
  deriving DecidableEq, Repr

/-- R230: "*No step (refused by the model)*: a host access that is not admitted (R38), collaborator traffic
that breaks a contract (R197)". Each is safe: the spec gives such an event no step, and no effect happens. -/
inductive Refusal where
  /-- Raised by `exec` for an instruction with no meaning yet (none is left). Safe. -/
  | notModelled (mnemonic : String)
  /-- Raised by every host access but a read of STATUS while BUSY = 1 (R38, R192, R254). Safe. -/
  | busy
  /-- Raised by a host write to a read-only register (R38). Safe. -/
  | readOnly
  /-- Raised by a host read of CMD or KEY, or of the KEY space (R38). Safe. -/
  | writeOnly
  /-- Raised by an access to an unassigned register number (R37). Safe. -/
  | unassigned
  /-- Raised by a host access to the hidden WBUF or HBUF (R38), and by a piecewise write of KEY, which the
  host reaches only as a whole register (R42). Safe. -/
  | hidden
  /-- Raised by a read of an output group whose valid bit is 0 (R38, R41). Safe. -/
  | noValue
  /-- Raised by a write whose value has not the register's length: CMD one byte, OPIV 16 (R190). Safe. -/
  | badLength
  /-- Raised by a write longer than KEY_MAX or MAX_OPERAND (R190). Safe. -/
  | overCapacity
  /-- Raised by a MemRead or MemWrite past the space's length register (R190, R191). Safe. -/
  | outOfRange
  /-- Raised by a collaborator's answer that matches no outstanding request (R197, R251), and by a header
  word that no `SrcRead(40)` awaits. Safe. -/
  | unsolicited
  /-- Raised by a source that answers `ok` while its stream holds fewer bytes than asked (R63, R197). Safe. -/
  | sourceShort
  /-- Raised by a second-level opcode that is not that of the Packet held: the opcode is `PKT.FLAGS`
  itself (R101, R170), so the block fetches no other. Safe. -/
  | flagsNotHeld
  deriving DecidableEq, Repr

/-- R20: the state. Field by field in INVENTORY.md. -/
structure State where
  /-- R22 `STATUS` -/
  status : Status
  /-- R23 `ERR_KIND` -/
  errKind : BitVec 4
  /-- R23 `ERR_REASON` -/
  errReason : BitVec 4
  /-- R23 `ERR_INFO`, `DESC_W` bits: a number below `2 ^ par.descW` (log entry 2) -/
  errInfo : Nat
  /-- R24 `PHASE`, hidden -/
  phase : Phase
  /-- the operation in progress, hidden (log entry 5) -/
  oper : Option Oper
  /-- R25 `KEY` -/
  key : Bytes
  /-- R25 `KLEN` -/
  klen : BitVec 8
  /-- R26 `OPIV` -/
  opiv : Bytes
  /-- R27 `IBUF` -/
  ibuf : Bytes
  /-- R27 `ILEN` -/
  ilen : BitVec 32
  /-- R28 `HF.MAGIC` -/
  hfMagic : Bytes
  /-- R28 the six other fields of `HF` -/
  hf : Header
  /-- R29 `PKT` -/
  pkt : PacketRegs
  /-- R29 `PBUF` -/
  pbuf : Bytes
  /-- R30 `RBUF` -/
  rbuf : Bytes
  /-- R30 `RLEN` -/
  rlen : BitVec 32
  /-- R31 `WBUF`, hidden -/
  wbuf : Bytes
  /-- R32 `HBUF`, hidden, 40 bytes -/
  hbuf : Bytes
  /-- R33 `OUT`, hidden; `none` is the spec's own value -/
  out : Option Request
  /-- R7, R40: the parameters; no step changes them (log entry 2) -/
  par : Params
  /-- R40: the byte source's remaining stream (state of agent SRC) -/
  stream : Bytes
  /-- what the outside does next, first first (log entry 1) -/
  inputs : List Input
  /-- R199: what the outside has observed, latest first (log entry 1) -/
  obs : List Obs
  deriving DecidableEq, Repr

/-- A register or buffer of `n` bytes of 0x00. -/
def zeros (n : Nat) : Bytes := List.replicate n 0#8

/-- R39: the state after reset, with the default parameters (R7), nothing on the stream and nothing
queued. HF, PKT, PBUF, RBUF, WBUF and HBUF are without value in the spec: zeros and empty sequences here
(DESIGN CHOICE, log entry 6). -/
def State.reset : State :=
  { status := { busy := false, done := false, err := false, hdrValid := false, pktValid := false, resValid := false }
    errKind := 0#4
    errReason := 0#4
    errInfo := 0
    phase := .idle
    oper := none
    key := []
    klen := 0#8
    opiv := zeros Config.ivLen
    ibuf := []
    ilen := 0#32
    hfMagic := zeros Config.magicLen
    hf := { pver := 0#32, devid := zeros Config.devidLen, flags := 0#16, iv := zeros Config.ivLen, plver := 0#32, plen := 0#32 }
    pkt := { pver := 0#32, plver := 0#32, devid := zeros Config.devidLen, flags := 0#16, iv := zeros Config.ivLen, plen := 0#32 }
    pbuf := []
    rbuf := []
    rlen := 0#32
    wbuf := []
    hbuf := zeros Config.headerLen
    out := none
    par := Params.default
    stream := []
    inputs := []
    obs := [] }

end Sys2Proof.Machine
end

