-- ==== Sys2Proof/Machine/Flags.lean ====
section
/-! DEFINITION. Flags: the layout of STATUS, the class of the packet flags, and the error codes. -/

namespace Sys2Proof.Machine

/-- The 0 or 1 that a status bit contributes at bit `i`. -/
def bitAt (b : Bool) (i : Nat) : BitVec 8 :=
  if b then 1#8 <<< i else 0#8

/-- R22: STATUS as the host reads it; bits 7:6 read as 0. -/
def Status.word (t : Status) : BitVec 8 :=
  bitAt t.busy 0 ||| bitAt t.done 1 ||| bitAt t.err 2 ||| bitAt t.hdrValid 3 ||| bitAt t.pktValid 4 ||| bitAt t.resValid 5

/-- R225: the output `done`, equal at all times to `STATUS.DONE`. -/
def State.donePin (s : State) : Bool :=
  s.status.done

/-- R101: the row of the flags in the table of stages, from the three flags that select stages. -/
def flagsClass (f : BitVec 16) : BitVec 3 :=
  BitVec.ofBool (isSnappy f) ++ BitVec.ofBool (isCompressed f) ++ BitVec.ofBool (isEncrypted f)

/-- R218: the kind code. -/
def Err.kind : Err → BitVec 4
  | .invalidMagic => 1#4
  | .headerTooShort => 2#4
  | .noPayloadLength => 2#4
  | .payloadShort _ => 2#4
  | .invalidKey => 3#4
  | .noData => 4#4
  | .notPadded => 4#4
  | .structureInvalid => 4#4
  | .compressedFlag => 5#4
  | .decompressFailed _ => 6#4
  | .shorterThanTrailer => 6#4
  | .illegalCommand => 15#4
  | .parseLength => 15#4
  | .noPacket => 15#4
  | .capacity => 15#4

/-- R218: the reason code within the kind. -/
def Err.reason : Err → BitVec 4
  | .invalidMagic => 0#4
  | .headerTooShort => 1#4
  | .noPayloadLength => 2#4
  | .payloadShort _ => 3#4
  | .invalidKey => 0#4
  | .noData => 1#4
  | .notPadded => 2#4
  | .structureInvalid => 3#4
  | .compressedFlag => 1#4
  | .decompressFailed _ => 1#4
  | .shorterThanTrailer => 2#4
  | .illegalCommand => 1#4
  | .parseLength => 2#4
  | .noPacket => 3#4
  | .capacity => 4#4

/-- R218: `ERR_INFO`, a collaborator's description for the two causes that carry one, else 0. -/
def Err.info : Err → Nat
  | .payloadShort d => d
  | .decompressFailed d => d
  | .invalidMagic => 0
  | .headerTooShort => 0
  | .noPayloadLength => 0
  | .invalidKey => 0
  | .noData => 0
  | .notPadded => 0
  | .structureInvalid => 0
  | .compressedFlag => 0
  | .shorterThanTrailer => 0
  | .illegalCommand => 0
  | .parseLength => 0
  | .noPacket => 0
  | .capacity => 0

end Sys2Proof.Machine
end

