-- ==== Sys2Proof/Machine/Operands.lean ====
section
/-! DEFINITION. Operand formats: the PKCS7 padded buffer, the snappy-stage input, failure descriptions,
and the register names behind register numbers. -/

namespace Sys2Proof.Machine

/-- R160: `unpad`, the checks in their fixed order. `n` is the last byte read as an unsigned count 0..255. -/
def unpad (b : Bytes) : Except Err Bytes :=
  match b.getLast? with
  | none => .error .noData
  | some last =>
    let n := last.toNat
    if n = 0 ∨ b.length < n then .error .notPadded
    else if (b.drop (b.length - n)).all (fun x => x == last) then .ok (b.take (b.length - n))
    else .error .structureInvalid

/-- R96, R175: `dropLast(r, 10)`, what of the working value goes to the decompressor. -/
def withoutTrailer (r : Bytes) : Bytes :=
  r.take (r.length - Config.trailerLen)

/-- R63, R198: a failure description is a `DESC_W`-bit value (log entry 2). -/
def descOn (p : Params) (d : Nat) : Nat :=
  d % 2 ^ p.descW

/-- R37: the registers with a number. -/
inductive Reg where
  /-- 0x00 -/
  | cmd
  /-- 0x01 -/
  | status
  /-- 0x02 -/
  | errKind
  /-- 0x03 -/
  | errReason
  /-- 0x04 -/
  | errInfo
  /-- 0x08 -/
  | klen
  /-- 0x09 -/
  | key
  /-- 0x0A -/
  | opiv
  /-- 0x0B -/
  | ilen
  /-- 0x0C -/
  | ibuf
  /-- 0x10 -/
  | hfMagic
  /-- 0x11 -/
  | hfPver
  /-- 0x12 -/
  | hfDevid
  /-- 0x13 -/
  | hfFlags
  /-- 0x14 -/
  | hfIv
  /-- 0x15 -/
  | hfPlver
  /-- 0x16 -/
  | hfPlen
  /-- 0x18 -/
  | pktPver
  /-- 0x19 -/
  | pktPlver
  /-- 0x1A -/
  | pktDevid
  /-- 0x1B -/
  | pktFlags
  /-- 0x1C -/
  | pktIv
  /-- 0x1D -/
  | pktPlen
  /-- 0x1E -/
  | pbuf
  /-- 0x20 -/
  | rlen
  /-- 0x21 -/
  | rbuf
  deriving DecidableEq, Repr

/-- R37: the register numbers. -/
def Reg.number : Reg → BitVec 8
  | .cmd => 0x00#8
  | .status => 0x01#8
  | .errKind => 0x02#8
  | .errReason => 0x03#8
  | .errInfo => 0x04#8
  | .klen => 0x08#8
  | .key => 0x09#8
  | .opiv => 0x0A#8
  | .ilen => 0x0B#8
  | .ibuf => 0x0C#8
  | .hfMagic => 0x10#8
  | .hfPver => 0x11#8
  | .hfDevid => 0x12#8
  | .hfFlags => 0x13#8
  | .hfIv => 0x14#8
  | .hfPlver => 0x15#8
  | .hfPlen => 0x16#8
  | .pktPver => 0x18#8
  | .pktPlver => 0x19#8
  | .pktDevid => 0x1A#8
  | .pktFlags => 0x1B#8
  | .pktIv => 0x1C#8
  | .pktPlen => 0x1D#8
  | .pbuf => 0x1E#8
  | .rlen => 0x20#8
  | .rbuf => 0x21#8

/-- R37: every register that has a number, in the order of the list. -/
def Reg.all : List Reg :=
  [.cmd, .status, .errKind, .errReason, .errInfo, .klen, .key, .opiv, .ilen, .ibuf, .hfMagic, .hfPver, .hfDevid] ++
  [.hfFlags, .hfIv, .hfPlver, .hfPlen, .pktPver, .pktPlver, .pktDevid, .pktFlags, .pktIv, .pktPlen, .pbuf, .rlen, .rbuf]

/-- R37: the register of a number; `none` for an unassigned number. -/
def Reg.ofNumber (n : BitVec 8) : Option Reg :=
  Reg.all.find? fun r => r.number == n

end Sys2Proof.Machine
end

