-- ==== Sys2Proof/Machine/Ops.lean ====
section
/-! DEFINITION. The shared operations: the command handshake (acceptance R192, completion R193, error entry
R217), the output groups, collaborator requests, and the stages of `decrypt` and `resolvePayload`.

The error entry `State.raise` is the block's way of taking an exception (R217). There is nothing to return
from (R226): the next accepted command clears the report, which is `State.accept`. -/

namespace Sys2Proof.Machine

/-- R192: the generic effects of command acceptance. -/
def State.accept (s : State) : State :=
  { s with
    status := { s.status with busy := true, done := false, err := false }
    errKind := 0#4, errReason := 0#4, errInfo := 0 }

/-- R193: completion by `return`; ERR and the error registers stay 0 as acceptance left them. -/
def State.complete (s : State) : State :=
  { s with
    status := { s.status with busy := false, done := true }
    phase := .idle, oper := none, out := none }

/-- R193, R217: the error entry, `raise K(reason, info)`. -/
def State.raise (e : Err) (s : State) : State :=
  { s with
    status := { s.status with busy := false, done := true, err := true }
    errKind := e.kind, errReason := e.reason, errInfo := e.info
    phase := .idle, oper := none, out := none }

/-- The operation in progress (log entry 5); `none` for an illegal command. -/
def State.setOper (o : Option Oper) (s : State) : State :=
  { s with oper := o }

/-- R192: a command runs only when BUSY = 0; a write of CMD while BUSY = 1 is not admitted. The generic
effects come first, then the operation's own pseudocode. -/
def State.command (s : State) (o : Option Oper) (body : State → State) : Host.Outcome State Fault Refusal :=
  if s.status.busy then .refused .busy else .next (body (s.accept.setOper o))

/-- R121: `HDR_VALID <- 0`. -/
def State.clearHeader (s : State) : State :=
  { s with status := { s.status with hdrValid := false } }

/-- R121: the seven field values and `HDR_VALID <- 1`, together (R74). -/
def State.commitHeader (h : Header) (s : State) : State :=
  { s with hfMagic := Config.magic, hf := h, status := { s.status with hdrValid := true } }

/-- R131: `PKT_VALID <- 0`. -/
def State.clearPacket (s : State) : State :=
  { s with status := { s.status with pktValid := false } }

/-- R131: the Packet from the header fields and the payload, with `PKT_VALID <- 1`, together (R74). -/
def State.commitPacket (h : Header) (p : Bytes) (s : State) : State :=
  { s with
    pkt := { pver := h.pver, plver := h.plver, devid := h.devid, flags := h.flags, iv := h.iv, plen := BitVec.ofNat 32 p.length }
    pbuf := p
    status := { s.status with pktValid := true } }

/-- R146, R161, R171: `RES_VALID <- 0; RLEN <- 0`. RBUF's bytes stay where they are, unreadable (R262). -/
def State.clearResult (s : State) : State :=
  { s with rlen := 0#32, status := { s.status with resValid := false } }

/-- R146, R161, R171: `RBUF <- WBUF; RLEN <- len; RES_VALID <- 1`, together (R74). -/
def State.commitResult (s : State) : State :=
  { s with rbuf := s.wbuf, rlen := BitVec.ofNat 32 s.wbuf.length, status := { s.status with resValid := true } }

/-- R31: the working buffer takes a value. -/
def State.setWork (b : Bytes) (s : State) : State :=
  { s with wbuf := b }

/-- R32: the transient header buffer takes 40 header bytes. -/
def State.setHeaderBuffer (b : Bytes) (s : State) : State :=
  { s with hbuf := b }

/-- R24, R33: the block makes a collaborator request and waits for its answer. -/
def State.request (r : Request) (p : Phase) (s : State) : State :=
  { s with phase := p, out := some r, obs := .request r :: s.obs }

/-- The operation ends with success and the working value as its result. -/
def State.finishWork (s : State) : State :=
  s.commitResult.complete

/-- R145 up to the cipher call: the key length, then the ciphertext length, then one `CiphCall` on the
private copy. -/
def State.startDecrypt (key iv : Bytes) (s : State) : State :=
  if key.length ≠ Config.keyLen then s.raise .invalidKey
  else if s.wbuf.length % Config.block ≠ 0 then s.raise .notPadded
  else s.request (.ciph key iv s.wbuf) .ciphWait

/-- R174: stage LEGACY never succeeds. -/
def State.legacyStage (s : State) : State :=
  s.raise .compressedFlag

/-- R175, R176: stage SNAPPY up to the decompressor call. -/
def State.snappyStage (s : State) : State :=
  if s.wbuf.length < Config.trailerLen then s.raise .shorterThanTrailer
  else s.request (.dcmp (withoutTrailer s.wbuf)) .dcmpWait

/-- R170 steps 3 to 5: what follows the decrypt stage, by the stored flags. -/
def State.afterDecrypt (s : State) : State :=
  if isCompressed s.pkt.flags then s.legacyStage
  else if isSnappy s.pkt.flags then s.snappyStage
  else s.finishWork

/-- R239: whether the operation in progress is RESOLVE. -/
def State.resolving (s : State) : Bool :=
  s.oper == some .resolve

end Sys2Proof.Machine
end

