-- ==== Sys2Proof/Machine/Answers.lean ====
section
/-! DEFINITION. What the block does when a collaborator answers (R239): the transitions that leave a wait
phase, but for a header that decodes, which is the instruction INFORM_HEADER. -/

namespace Sys2Proof.Machine

/-- R130 step 5, R131, R74: the payload has arrived; the Packet is built from HBUF and it, and committed. -/
def payloadArrived (p : Bytes) (s : State) : State :=
  (s.commitPacket (headerFields s.hbuf) p).complete

/-- R133, R134: the source failed; its description is kept only for a payload short read. -/
def sourceFailed (desc : Nat) (s : State) : State :=
  if s.phase = .payRead then s.raise (.payloadShort (descOn s.par desc)) else s.raise .headerTooShort

/-- R145 after the cipher's answer `d`: `unpad`, then the end of DECRYPT or the later stages of RESOLVE. -/
def cipherAnswered (d : Bytes) (s : State) : State :=
  match unpad d with
  | .error e => (s.setWork d).raise e
  | .ok u =>
    if s.resolving then ((s.setWork d).setWork u).afterDecrypt else ((s.setWork d).setWork u).finishWork

/-- R170 step 4 after the decompressor's answer, R178. -/
def decompressorAnswered (a : DcmpAnswer) (s : State) : State :=
  match a with
  | .fail desc => s.raise (.decompressFailed (descOn s.par desc))
  | .ok o => if s.par.maxResult < o.length then s.raise .capacity else (s.setWork o).finishWork

/-- R63: `ok` in PAY_READ; the bytes are the next of the stream and are consumed. -/
def answerSourceOk (s : State) : Host.Outcome State Fault Refusal :=
  match s.out with
  | some (.src n) =>
    if s.stream.length < n then .refused .sourceShort
    else if s.phase = .payRead then .next (payloadArrived (s.stream.take n) { s with stream := s.stream.drop n })
    else .refused .unsolicited
  | some (.ciph _ _ _) => .refused .unsolicited
  | some (.dcmp _) => .refused .unsolicited
  | none => .refused .unsolicited

/-- R63: `fail(desc)` in HDR_READ or PAY_READ; what it consumed is the source's affair (U12). -/
def answerSourceFail (desc consumed : Nat) (s : State) : Host.Outcome State Fault Refusal :=
  match s.out with
  | some (.src _) => .next (sourceFailed desc { s with stream := s.stream.drop consumed })
  | some (.ciph _ _ _) => .refused .unsolicited
  | some (.dcmp _) => .refused .unsolicited
  | none => .refused .unsolicited

/-- R196: the cipher's answer is `cbcDecrypt` of the outstanding request. -/
def answerCipher (s : State) : Host.Outcome State Fault Refusal :=
  match s.out with
  | some (.ciph key iv ct) => .next (cipherAnswered (Config.cbcDecrypt key iv ct) s)
  | some (.src _) => .refused .unsolicited
  | some (.dcmp _) => .refused .unsolicited
  | none => .refused .unsolicited

/-- R198: the decompressor's answer is `decompress` of the outstanding request. -/
def answerDecompressor (s : State) : Host.Outcome State Fault Refusal :=
  match s.out with
  | some (.dcmp data) => .next (decompressorAnswered (Config.decompress data) s)
  | some (.src _) => .refused .unsolicited
  | some (.ciph _ _ _) => .refused .unsolicited
  | none => .refused .unsolicited

end Sys2Proof.Machine
end

