-- ==== Sys2Proof/Machine/Codec.lean ====
section
/-! DEFINITION. The Header Codec: PARSE (40_header_codec.md). -/

namespace Sys2Proof.Machine

/-- R121: PARSE's pseudocode. -/
def State.parseBody (s : State) : State :=
  if s.ilen ≠ BitVec.ofNat 32 Config.headerLen then s.raise .parseLength
  else
    match parseHeader s.ibuf with
    | none => s.clearHeader.raise .invalidMagic
    | some h => (s.clearHeader.commitHeader h).complete

/-- PARSE, R121: one transition from acceptance to completion. -/
def execParse (s : State) : Host.Outcome State Fault Refusal :=
  s.command (some .parse) State.parseBody

end Sys2Proof.Machine
end

