-- ==== Sys2Proof/Machine/Decryptor.lean ====
section
/-! DEFINITION. The Block-Cipher Decryptor wrapper: DECRYPT (42_block_cipher_decryptor.md). -/

namespace Sys2Proof.Machine

/-- R146, R145: the result is discarded, IBUF is copied, and `decrypt` runs up to its wait. -/
def State.decryptBody (s : State) : State :=
  (s.clearResult.setWork s.ibuf).startDecrypt s.key s.opiv

/-- DECRYPT, R146: from acceptance to the wait for the cipher, or to a failed precondition. -/
def execDecrypt (s : State) : Host.Outcome State Fault Refusal :=
  s.command (some .decrypt) State.decryptBody

end Sys2Proof.Machine
end

