-- ==== Sys2Proof/Machine/Framer.lean ====
section
/-! DEFINITION. The Packet Framer: DECODE, and the header word it awaits (41_packet_framer.md). -/

namespace Sys2Proof.Machine

/-- R131, R130 step 1: the previous Packet is discarded and `SrcRead(40)` is sent. -/
def State.decodeBody (s : State) : State :=
  s.clearPacket.request (.src Config.headerLen) .hdrRead

/-- DECODE, R131: from acceptance to the wait for the header. -/
def execDecode (s : State) : Host.Outcome State Fault Refusal :=
  s.command (some .decode) State.decodeBody

/-- R130 steps 3 and 4: the declared length is 0, above MAX_PAYLOAD, or asked of the source. -/
def State.frameHeader (h : Header) (s : State) : State :=
  if h.plen = 0#32 then s.raise .noPayloadLength
  else if s.par.maxPayload < h.plen.toNat then s.raise .capacity
  else s.request (.src h.plen.toNat) .payRead

/-- R239: whether the block is in HDR_READ with `SrcRead(40)` outstanding. -/
def State.awaitsHeader (s : State) : Bool :=
  s.phase == .hdrRead && s.out == some (.src Config.headerLen)

/-- INFORM_HEADER, R130 steps 1 to 4: a valid header answers `SrcRead(40)`. Where none is awaited it is
collaborator traffic without a step (R197). -/
def execInformHeader (h : Header) (s : State) : Host.Outcome State Fault Refusal :=
  if s.awaitsHeader then .next ((s.setHeaderBuffer (encodeHeader h)).frameHeader h) else .refused .unsolicited

/-- R130 step 2, R210: 40 bytes that do not begin with the magic. -/
def rejectHeader (b : Bytes) (s : State) : Host.Outcome State Fault Refusal :=
  if s.awaitsHeader then .next ((s.setHeaderBuffer b).raise .invalidMagic) else .refused .unsolicited

end Sys2Proof.Machine
end

