-- ==== Sys2Proof/Machine/Illegal.lean ====
section
/-! DEFINITION. Illegal commands (R99): accepted, and completed at once with `Refused(1, 0)`. -/

namespace Sys2Proof.Machine

/-- R99, R194 reason 1: the effect of every illegal command word. -/
def illegalCommand (s : State) : Host.Outcome State Fault Refusal :=
  s.command none (State.raise .illegalCommand)

/-- ILLEGAL.OP0, R99. -/
def execIllegalOp0 (s : State) : Host.Outcome State Fault Refusal :=
  illegalCommand s

/-- ILLEGAL.OP6, R99. -/
def execIllegalOp6 (s : State) : Host.Outcome State Fault Refusal :=
  illegalCommand s

/-- ILLEGAL.OP7, R99. -/
def execIllegalOp7 (s : State) : Host.Outcome State Fault Refusal :=
  illegalCommand s

end Sys2Proof.Machine
end

