-- ==== Sys2Proof/Machine/Pipeline.lean ====
section
/-! DEFINITION. The Payload Pipeline: RESOLVE, and its eight second-level opcodes (44_payload_pipeline.md,
R101). RESOLVE tests the flags one by one, as R170 does; each second-level opcode is written from its row of
R101. That the two agree is an obligation. -/

namespace Sys2Proof.Machine

/-- R171, step 1 of R170: the result is discarded and the payload is copied. -/
def State.startResolve (s : State) : State :=
  s.clearResult.setWork s.pbuf

/-- R173: stage DECRYPT up to its wait, with the host's KEY and the Packet's own iv. -/
def State.decryptStage (s : State) : State :=
  s.startDecrypt s.key s.pkt.iv

/-- R171, R170: RESOLVE's pseudocode up to its first wait. -/
def State.resolveBody (s : State) : State :=
  if s.status.pktValid then
    if isEncrypted s.pkt.flags then s.startResolve.decryptStage else s.startResolve.afterDecrypt
  else s.raise .noPacket

/-- RESOLVE, R171. -/
def execResolve (s : State) : Host.Outcome State Fault Refusal :=
  s.command (some .resolve) State.resolveBody

/-- A second-level opcode of class `k`: RESOLVE with its stages already selected. The opcode is that of the
Packet held (R101, R170); another one is never fetched and has no step. -/
def State.secondLevel (s : State) (k : BitVec 3) (stages : State → State) : Host.Outcome State Fault Refusal :=
  if s.status.busy = false ∧ s.status.pktValid = true ∧ flagsClass s.pkt.flags ≠ k then .refused .flagsNotHeld
  else s.command (some .resolve) fun t => if t.status.pktValid then stages t.startResolve else t.raise .noPacket

/-- RESOLVE.F0, R101 row 0, R177: "returns the raw payload unchanged". `rest` is never tested (R94). -/
def execResolveF0 (_rest : BitVec 16) (s : State) : Host.Outcome State Fault Refusal :=
  s.secondLevel 0#3 State.finishWork

/-- RESOLVE.F1, R101 row 1: "decrypt; returns the plaintext". -/
def execResolveF1 (_rest : BitVec 16) (s : State) : Host.Outcome State Fault Refusal :=
  s.secondLevel 1#3 State.decryptStage

/-- RESOLVE.F2, R101 row 2: fails `UnsupportedFlagError("compressed")`. -/
def execResolveF2 (_rest : BitVec 16) (s : State) : Host.Outcome State Fault Refusal :=
  s.secondLevel 2#3 State.legacyStage

/-- RESOLVE.F3, R101 row 3: decrypt (its failure wins), then the legacy check when the cipher has answered. -/
def execResolveF3 (_rest : BitVec 16) (s : State) : Host.Outcome State Fault Refusal :=
  s.secondLevel 3#3 State.decryptStage

/-- RESOLVE.F4, R101 row 4: strips 10 bytes and decompresses. -/
def execResolveF4 (_rest : BitVec 16) (s : State) : Host.Outcome State Fault Refusal :=
  s.secondLevel 4#3 State.snappyStage

/-- RESOLVE.F5, R101 row 5: decrypt, then strip and decompress the plaintext. -/
def execResolveF5 (_rest : BitVec 16) (s : State) : Host.Outcome State Fault Refusal :=
  s.secondLevel 5#3 State.decryptStage

/-- RESOLVE.F6, R101 row 6: fails `UnsupportedFlagError("compressed")`; no decompressor call. -/
def execResolveF6 (_rest : BitVec 16) (s : State) : Host.Outcome State Fault Refusal :=
  s.secondLevel 6#3 State.legacyStage

/-- RESOLVE.F7, R101 row 7: decrypt (its failure wins), then the legacy check; no decompressor call. -/
def execResolveF7 (_rest : BitVec 16) (s : State) : Host.Outcome State Fault Refusal :=
  s.secondLevel 7#3 State.decryptStage

end Sys2Proof.Machine
end

