-- ==== Sys2Proof/Machine/Unpad.lean ====
section
/-! DEFINITION. The PKCS7 Padding Remover: UNPAD (43_pkcs7_unpad.md). -/

namespace Sys2Proof.Machine

/-- R161: UNPAD's pseudocode. -/
def State.unpadBody (s : State) : State :=
  match unpad s.ibuf with
  | .error e => (s.clearResult.setWork s.ibuf).raise e
  | .ok u => ((s.clearResult.setWork s.ibuf).setWork u).finishWork

/-- UNPAD, R161: one transition from acceptance to completion. -/
def execUnpad (s : State) : Host.Outcome State Fault Refusal :=
  s.command (some .unpad) State.unpadBody

end Sys2Proof.Machine
end

