-- ==== Sys2Proof/Machine/Dispatch.lean ====
section
/-! DEFINITION. One arm per constructor of Instr. -/

namespace Sys2Proof.Machine

def exec (i : Instr) (s : State) : Host.Outcome State Fault Refusal :=
  match i with
  | .parse => Sys2Proof.Machine.execParse s
  | .decode => Sys2Proof.Machine.execDecode s
  | .decrypt => Sys2Proof.Machine.execDecrypt s
  | .unpad => Sys2Proof.Machine.execUnpad s
  | .resolve => Sys2Proof.Machine.execResolve s
  | .illegalOp0 => Sys2Proof.Machine.execIllegalOp0 s
  | .illegalOp6 => Sys2Proof.Machine.execIllegalOp6 s
  | .illegalOp7 => Sys2Proof.Machine.execIllegalOp7 s
  | .resolveF0 rest => Sys2Proof.Machine.execResolveF0 rest s
  | .resolveF1 rest => Sys2Proof.Machine.execResolveF1 rest s
  | .resolveF2 rest => Sys2Proof.Machine.execResolveF2 rest s
  | .resolveF3 rest => Sys2Proof.Machine.execResolveF3 rest s
  | .resolveF4 rest => Sys2Proof.Machine.execResolveF4 rest s
  | .resolveF5 rest => Sys2Proof.Machine.execResolveF5 rest s
  | .resolveF6 rest => Sys2Proof.Machine.execResolveF6 rest s
  | .resolveF7 rest => Sys2Proof.Machine.execResolveF7 rest s
  | .informHeader h => Sys2Proof.Machine.execInformHeader h s

end Sys2Proof.Machine
end

