-- ==== Sys2Proof/Machine/HostAccess.lean ====
section
/-! DEFINITION. Host access to registers and buffers (R38, R190, R191, R42), and reset (R250). -/

namespace Sys2Proof.Machine

/-- R38: a read that is admitted when the group's valid bit is 1. -/
def whenValid (valid : Bool) (v : Value) : Except Refusal Value :=
  if valid then .ok v else .error .noValue

/-- R38, R191: what a host read of a register returns when BUSY = 0, or why it is not admitted. -/
def State.regValue (s : State) : Reg → Except Refusal Value
  | .cmd => .error .writeOnly
  | .status => .ok (.num s.status.word.toNat)
  | .errKind => .ok (.num s.errKind.toNat)
  | .errReason => .ok (.num s.errReason.toNat)
  | .errInfo => .ok (.num s.errInfo)
  | .klen => .ok (.num s.klen.toNat)
  | .key => .error .writeOnly
  | .opiv => .ok (.bytes s.opiv)
  | .ilen => .ok (.num s.ilen.toNat)
  | .ibuf => .ok (.bytes s.ibuf)
  | .hfMagic => whenValid s.status.hdrValid (.bytes s.hfMagic)
  | .hfPver => whenValid s.status.hdrValid (.num s.hf.pver.toNat)
  | .hfDevid => whenValid s.status.hdrValid (.bytes s.hf.devid)
  | .hfFlags => whenValid s.status.hdrValid (.num s.hf.flags.toNat)
  | .hfIv => whenValid s.status.hdrValid (.bytes s.hf.iv)
  | .hfPlver => whenValid s.status.hdrValid (.num s.hf.plver.toNat)
  | .hfPlen => whenValid s.status.hdrValid (.num s.hf.plen.toNat)
  | .pktPver => whenValid s.status.pktValid (.num s.pkt.pver.toNat)
  | .pktPlver => whenValid s.status.pktValid (.num s.pkt.plver.toNat)
  | .pktDevid => whenValid s.status.pktValid (.bytes s.pkt.devid)
  | .pktFlags => whenValid s.status.pktValid (.num s.pkt.flags.toNat)
  | .pktIv => whenValid s.status.pktValid (.bytes s.pkt.iv)
  | .pktPlen => whenValid s.status.pktValid (.num s.pkt.plen.toNat)
  | .pbuf => whenValid s.status.pktValid (.bytes s.pbuf)
  | .rlen => .ok (.num s.rlen.toNat)
  | .rbuf => whenValid s.status.resValid (.bytes s.rbuf)

/-- R38: STATUS is readable at any time, every other register only when BUSY = 0. -/
def State.readReg (s : State) (r : Reg) : Except Refusal Value :=
  if s.status.busy && r != .status then .error .busy else s.regValue r

/-- R191: `HRD(reg)`; it changes nothing of the block, and the value returned is observed (R199). -/
def hostRead (reg : BitVec 8) (s : State) : Host.Outcome State Fault Refusal :=
  match Reg.ofNumber reg with
  | none => .refused .unassigned
  | some r =>
    match s.readReg r with
    | .ok v => .next { s with obs := .read reg v :: s.obs }
    | .error e => .refused e

/-- R25, R190: `HWR(KEY, k)`. -/
def State.writeKey (k : Bytes) (s : State) : State :=
  { s with key := k, klen := BitVec.ofNat 8 k.length }

/-- R26, R190: `HWR(OPIV, v)`. -/
def State.writeOpiv (v : Bytes) (s : State) : State :=
  { s with opiv := v }

/-- R27, R190: `HWR(IBUF, b)`. -/
def State.writeIbuf (b : Bytes) (s : State) : State :=
  { s with ibuf := b, ilen := BitVec.ofNat 32 b.length }

/-- R190: a host write of a register when BUSY = 0. A one-byte write of CMD never comes here: it is a
command issue, which `step` fetches as a code word. -/
def State.writeReg (s : State) (r : Reg) (v : Bytes) : Host.Outcome State Fault Refusal :=
  match r with
  | .cmd => .refused .badLength
  | .key => if s.par.keyMax < v.length then .refused .overCapacity else .next (s.writeKey v)
  | .opiv => if v.length = Config.ivLen then .next (s.writeOpiv v) else .refused .badLength
  | .ibuf => if s.par.maxOperand < v.length then .refused .overCapacity else .next (s.writeIbuf v)
  | .status => .refused .readOnly
  | .errKind => .refused .readOnly
  | .errReason => .refused .readOnly
  | .errInfo => .refused .readOnly
  | .klen => .refused .readOnly
  | .ilen => .refused .readOnly
  | .hfMagic => .refused .readOnly
  | .hfPver => .refused .readOnly
  | .hfDevid => .refused .readOnly
  | .hfFlags => .refused .readOnly
  | .hfIv => .refused .readOnly
  | .hfPlver => .refused .readOnly
  | .hfPlen => .refused .readOnly
  | .pktPver => .refused .readOnly
  | .pktPlver => .refused .readOnly
  | .pktDevid => .refused .readOnly
  | .pktFlags => .refused .readOnly
  | .pktIv => .refused .readOnly
  | .pktPlen => .refused .readOnly
  | .pbuf => .refused .readOnly
  | .rlen => .refused .readOnly
  | .rbuf => .refused .readOnly

/-- R190: `HWR(reg, v)`, admitted only when BUSY = 0. -/
def hostWrite (reg : BitVec 8) (v : Bytes) (s : State) : Host.Outcome State Fault Refusal :=
  if s.status.busy then .refused .busy
  else
    match Reg.ofNumber reg with
    | none => .refused .unassigned
    | some r => s.writeReg r v

/-- R42, R38: the bytes of a space that a host may read when BUSY = 0, `len` of them. -/
def State.spaceBytes (s : State) : Space → Except Refusal Bytes
  | .key => .error .writeOnly
  | .ibuf => .ok (s.ibuf.take s.ilen.toNat)
  | .pbuf => if s.status.pktValid then .ok (s.pbuf.take s.pkt.plen.toNat) else .error .noValue
  | .rbuf => if s.status.resValid then .ok (s.rbuf.take s.rlen.toNat) else .error .noValue
  | .wbuf => .error .hidden
  | .hbuf => .error .hidden

/-- The model's read of one byte of a buffer space (R41): `none` where the access is not admitted. -/
def State.peek (s : State) (sp : Space) (a : Nat) : Option Byte :=
  match s.spaceBytes sp with
  | .ok b => b[a]?
  | .error _ => none

/-- R191: `MemRead(space, a, n)`, admitted only when `a + n` does not exceed the length register. -/
def hostMemRead (sp : Space) (a n : Nat) (s : State) : Host.Outcome State Fault Refusal :=
  if s.status.busy then .refused .busy
  else
    match s.spaceBytes sp with
    | .error e => .refused e
    | .ok b =>
      if a + n ≤ b.length then .next { s with obs := .memRead sp a n (slice b a (a + n)) :: s.obs }
      else .refused .outOfRange

/-- R190: the bytes `a .. a+n-1` of a sequence replaced. -/
def overwrite (b : Bytes) (a : Nat) (v : Bytes) : Bytes :=
  b.take a ++ v ++ b.drop (a + v.length)

/-- R190: part of IBUF replaced; its length stays. -/
def State.patchIbuf (a : Nat) (v : Bytes) (s : State) : State :=
  { s with ibuf := overwrite s.ibuf a v }

/-- R190: `MemWrite(IBUF, a, n, v)`, admitted for `a + n <= ILEN`; only IBUF may be written (R38). -/
def hostMemWrite (sp : Space) (a : Nat) (v : Bytes) (s : State) : Host.Outcome State Fault Refusal :=
  if s.status.busy then .refused .busy
  else
    match sp with
    | .ibuf => if a + v.length ≤ s.ilen.toNat then .next (s.patchIbuf a v) else .refused .outOfRange
    | .key => .refused .hidden
    | .pbuf => .refused .readOnly
    | .rbuf => .refused .readOnly
    | .wbuf => .refused .hidden
    | .hbuf => .refused .hidden

/-- R63, R251: the stream after a `SrcRead` is abandoned for which the source had consumed `consumed` bytes; what
was consumed is gone. With no `SrcRead` outstanding the source has consumed nothing. -/
def State.abandonedStream (s : State) (consumed : Nat) : Bytes :=
  match s.out with
  | some (.src _) => s.stream.drop consumed
  | some (.ciph _ _ _) => s.stream
  | some (.dcmp _) => s.stream
  | none => s.stream

/-- R250, R251: reset; every register takes its value of R39, whatever the state was. The parameters, the
stream, what the outside does next and what it has observed are not state of the block (R40); the stream does
not rewind. -/
def State.applyReset (consumed : Nat) (s : State) : State :=
  { State.reset with par := s.par, stream := s.abandonedStream consumed, inputs := s.inputs, obs := s.obs }

end Sys2Proof.Machine
end

