-- ==== Sys2Proof/Machine/Fetch.lean ====
section
/-! DEFINITION. Where the next code word comes from, what becomes of one the decoder rejects, and the acts
of the outside that carry no code word.

The block stores no program (R35). A command word is what the host writes to CMD (R192); a flags word is
`PKT.FLAGS`, when a RESOLVE finds a valid Packet (R75, R101); a header word is what the source answers to
`SrcRead(40)` (R130). -/

namespace Sys2Proof.Machine

/-- The command byte that the next act issues: a one-byte write of CMD, or the RESOLVE of an INSPECT whose
DECODE succeeded (R103). -/
def State.issued (s : State) : Option (BitVec 8) :=
  match s.inputs with
  | .write reg [c] :: _ => if reg = Reg.number .cmd then some c else none
  | .inspectResolve :: _ => if s.status.done && !s.status.err then some 0x05#8 else none
  | _ => none

/-- R171, R101: the code word of an issued command: for RESOLVE with a valid Packet the Packet's flags, the
second-level opcode; for every other command the command word. -/
def State.commandWord (s : State) (c : BitVec 8) : CodeWord :=
  if c = 0x05#8 ∧ s.status.pktValid then .flags s.pkt.flags else .cmd c

/-- R63, R130: the header the source delivers now, if it answers `ok` to `SrcRead(40)`. -/
def State.delivered (s : State) : Option Bytes :=
  match s.inputs with
  | .srcOk :: _ =>
    if s.awaitsHeader && Config.headerLen ≤ s.stream.length then some (s.stream.take Config.headerLen) else none
  | _ => none

/-- The next code word, if the next act carries one. -/
def State.fetch (s : State) : Option CodeWord :=
  match s.issued with
  | some c => some (s.commandWord c)
  | none => s.delivered.map CodeWord.header

/-- The state past the fetched word: the act is taken, and header bytes are consumed from the stream (R63). -/
def State.pastWord (s : State) : State :=
  match s.issued with
  | some _ => { s with inputs := s.inputs.tail }
  | none => { s with inputs := s.inputs.tail, stream := s.stream.drop Config.headerLen }

/-- A code word the decoder rejects: an illegal command is accepted and completes with `Refused(1, 0)`
(R99); 40 bytes without the magic end DECODE with `InvalidMagic` (R130). A flags word is never rejected. -/
def reject (w : CodeWord) (s : State) : Host.Outcome State Fault Refusal :=
  match w with
  | .cmd _ => illegalCommand s
  | .flags _ => illegalCommand s
  | .header b => rejectHeader b s

/-- A fetched code word: decoded and executed, or rejected. -/
def runWord (w : CodeWord) (s : State) : Host.Outcome State Fault Refusal :=
  match decode w with
  | .ok i => exec i s
  | .error _ => reject w s

/-- R103: the second half of INSPECT when it issues no command: a host that finds BUSY = 1 is not admitted,
one that finds the DECODE failed does nothing. -/
def inspectIdle (s : State) : Host.Outcome State Fault Refusal :=
  if s.status.busy then .refused .busy else .next s

/-- An act that carries no code word, in a state from which the act has been taken. -/
def runInput (i : Input) (s : State) : Host.Outcome State Fault Refusal :=
  match i with
  | .write reg v => hostWrite reg v s
  | .read reg => hostRead reg s
  | .memRead sp a n => hostMemRead sp a n s
  | .memWrite sp a v => hostMemWrite sp a v s
  | .inspectResolve => inspectIdle s
  | .reset consumed => .next (s.applyReset consumed)
  | .arrive b => .next { s with stream := s.stream ++ b }
  | .srcOk => answerSourceOk s
  | .srcFail desc consumed => answerSourceFail desc consumed s
  | .ciphAnswer => answerCipher s
  | .dcmpAnswer => answerDecompressor s

/-- One step. Where nothing is to happen (no act is queued) the block does nothing: in IDLE it "waits for a
command" (R252), in a wait phase it "has no step of its own" and waits (R231). -/
def stepInput (s : State) : Host.Outcome State Fault Refusal :=
  match s.fetch with
  | some w => runWord w s.pastWord
  | none =>
    match s.inputs with
    | [] => .next s
    | i :: rest => runInput i { s with inputs := rest }

/-- The state with no operation in progress, everything else as it was. -/
def State.withoutOperation (s : State) : State :=
  { s with status := { s.status with busy := false }, phase := .idle, oper := none, out := none }

/-- A valid Packet is held: the one already there, or the smallest legal one (log entry 7). -/
def State.withPacket (s : State) : State :=
  if s.status.pktValid then s
  else
    { s with
      status := { s.status with pktValid := true }
      pkt := { s.pkt with plen := 1#32 }, pbuf := zeros 1 }

/-- A code word placed where the next step fetches it (log entry 7). A command is the host's next write of
CMD; a flags word is `PKT.FLAGS` of the Packet held, under a RESOLVE; a header is next on the stream, with a
DECODE awaiting it and the source answering. -/
def State.placeWord (s : State) (w : CodeWord) : State :=
  let t := s.withoutOperation
  match w with
  | .cmd c => { t with inputs := .write (Reg.number .cmd) [c] :: t.inputs }
  | .flags f =>
    let u := t.withPacket
    { u with pkt := { u.pkt with flags := f }, inputs := .write (Reg.number .cmd) [0x05#8] :: u.inputs }
  | .header b =>
    { t with
      status := { t.status with busy := true, done := false, err := false, pktValid := false }
      errKind := 0#4, errReason := 0#4, errInfo := 0
      phase := .hdrRead, oper := some .decode, out := some (.src Config.headerLen)
      stream := b ++ t.stream, inputs := .srcOk :: t.inputs }

end Sys2Proof.Machine
end

