-- ==== Sys2Proof/Machine/Step.lean ====
section
/-! DEFINITION. One step of the machine, and how the host places an instruction for it. -/

namespace Sys2Proof.Machine

/-- One step: the next act of the outside meets the block, as one transition (R24, R239). -/
def step (s : State) : Host.Outcome State Fault Refusal :=
  stepInput s

/-- The state in which the very next step fetches and runs the instruction of a word of the opcode table
(log entry 7). -/
def State.withFetchWord (s : State) (nbits w : Nat) : State :=
  match codeWordOf nbits w with
  | some cw => s.placeWord cw
  | none => s

end Sys2Proof.Machine
end

