-- ==== Sys2Proof/Machine/HostScript.lean ====
section
/-! DEFINITION. The host-script notation of R102 and R103, as the acts it stands for; when a run has ended, and
its observable result (R199). -/

namespace Sys2Proof.Machine

/-- A line of a host script. A line that issues a command carries the answers the collaborators give while
the host waits for `STATUS.DONE = 1`; INSPECT carries those of its DECODE and those of its RESOLVE. -/
inductive ScriptLine where
  /-- `KEY <hex bytes>` -/
  | key (b : Bytes)
  /-- `OPIV <16 hex bytes>` -/
  | opiv (b : Bytes)
  /-- `IBUF <hex bytes>` -/
  | ibuf (b : Bytes)
  /-- `PARSE` -/
  | parse
  /-- `DECODE` -/
  | decode (answers : List Input)
  /-- `DECRYPT` -/
  | decrypt (answers : List Input)
  /-- `UNPAD` -/
  | unpad
  /-- `RESOLVE` -/
  | resolve (answers : List Input)
  /-- `INSPECT` (R103) -/
  | inspect (decodeAnswers resolveAnswers : List Input)
  /-- `RESET` (R103), with what the source had consumed of an abandoned read (R251) -/
  | reset (consumed : Nat)
  /-- `EXPECT <register>`: the host read; the value it must have is a claim about `obs` -/
  | expect (r : Reg)
  deriving DecidableEq, Repr

/-- The write of a command code to CMD (R98). -/
def issueOf (c : BitVec 8) : Input :=
  .write (Reg.number .cmd) [c]

/-- R102, R103: the acts of a script line, in order. -/
def ScriptLine.acts : ScriptLine → List Input
  | .key b => [.write (Reg.number .key) b]
  | .opiv b => [.write (Reg.number .opiv) b]
  | .ibuf b => [.write (Reg.number .ibuf) b]
  | .parse => [issueOf 0x01#8]
  | .decode answers => issueOf 0x02#8 :: answers
  | .decrypt answers => issueOf 0x03#8 :: answers
  | .unpad => [issueOf 0x04#8]
  | .resolve answers => issueOf 0x05#8 :: answers
  | .inspect decodeAnswers resolveAnswers => issueOf 0x02#8 :: (decodeAnswers ++ .inspectResolve :: resolveAnswers)
  | .reset consumed => [.reset consumed]
  | .expect r => [.read r.number]

/-- A host script, queued from a state: the acts of its lines after those already queued. -/
def State.queueScript (s : State) (script : List ScriptLine) : State :=
  { s with inputs := s.inputs ++ script.flatMap ScriptLine.acts }

/-- R199: the run has ended: the script's last action has completed, BUSY = 0 and OUT = none. -/
def State.runEnded (s : State) : Bool :=
  s.inputs.isEmpty && !s.status.busy && s.out == none

/-- How many bytes an observed event asks of the source (R63). -/
def Obs.bytesAsked : Obs → Nat
  | .request (.src n) => n
  | .request (.ciph _ _ _) => 0
  | .request (.dcmp _) => 0
  | .read _ _ => 0
  | .memRead _ _ _ _ => 0

/-- R199: the number of bytes the source was asked for. -/
def State.bytesAsked (s : State) : Nat :=
  (s.obs.map Obs.bytesAsked).sum

/-- What a host read returned, if the event is one. -/
def Obs.returned : Obs → Option Value
  | .read _ v => some v
  | .memRead _ _ _ b => some (.bytes b)
  | .request _ => none

/-- The collaborator request, if the event is one. -/
def Obs.asked : Obs → Option Request
  | .request r => some r
  | .read _ _ => none
  | .memRead _ _ _ _ => none

/-- R199: the observable result of a run. -/
structure RunResult where
  /-- the values the script's reads returned, the oldest first -/
  values : List Value
  /-- the requests the block made on SRC, CIPH and DCMP, the oldest first -/
  requests : List Request
  /-- the number of bytes the source was asked for -/
  bytesAsked : Nat
  deriving DecidableEq, Repr

/-- R199: the observable result of the run that has led to this state; `none` while the run has not ended. -/
def State.runResult (s : State) : Option RunResult :=
  if s.runEnded then
    some { values := s.obs.reverse.filterMap Obs.returned, requests := s.obs.reverse.filterMap Obs.asked, bytesAsked := s.bytesAsked }
  else none

end Sys2Proof.Machine
end

