-- ==== Sys2Proof/Safety.lean ====
section
/-! DEFINITION. The terms in which claims speak of the machine: the invariant of its states, what an
operation leaves unchanged, how an operation ends or waits, the operations as the pure functions of
40_header_codec.md to 44_payload_pipeline.md, and which acts of the outside are admitted. -/

namespace Sys2Proof.Machine

/-! ## How an operation stands -/

/-- R192, R193: an operation has completed with success. -/
structure State.Succeeded (t : State) : Prop where
  busy : t.status.busy = false
  done : t.status.done = true
  err : t.status.err = false
  kind : t.errKind = 0#4
  reason : t.errReason = 0#4
  info : t.errInfo = 0
  phase : t.phase = .idle
  oper : t.oper = none
  out : t.out = none

/-- R193, R217: an operation has completed with the error outcome `e`. -/
structure State.Failed (e : Err) (t : State) : Prop where
  busy : t.status.busy = false
  done : t.status.done = true
  err : t.status.err = true
  kind : t.errKind = e.kind
  reason : t.errReason = e.reason
  info : t.errInfo = e.info
  phase : t.phase = .idle
  oper : t.oper = none
  out : t.out = none

/-- R24, R33, R192: an accepted operation waits in phase `p` for the answer to `r`. -/
structure State.Waits (o : Oper) (p : Phase) (r : Request) (t : State) : Prop where
  busy : t.status.busy = true
  done : t.status.done = false
  err : t.status.err = false
  kind : t.errKind = 0#4
  reason : t.errReason = 0#4
  info : t.errInfo = 0
  phase : t.phase = p
  oper : t.oper = some o
  out : t.out = some r

/-! ## Frames: what a transition leaves unchanged -/

/-- The operand registers (R25 to R27). -/
structure SameOperands (s t : State) : Prop where
  key : t.key = s.key
  klen : t.klen = s.klen
  opiv : t.opiv = s.opiv
  ibuf : t.ibuf = s.ibuf
  ilen : t.ilen = s.ilen

/-- The header-field group with its valid bit (R28). -/
structure SameHeader (s t : State) : Prop where
  magic : t.hfMagic = s.hfMagic
  fields : t.hf = s.hf
  valid : t.status.hdrValid = s.status.hdrValid

/-- The packet group with its valid bit (R29). -/
structure SamePacket (s t : State) : Prop where
  regs : t.pkt = s.pkt
  pbuf : t.pbuf = s.pbuf
  valid : t.status.pktValid = s.status.pktValid

/-- The result group with its valid bit (R30). -/
structure SameResult (s t : State) : Prop where
  rbuf : t.rbuf = s.rbuf
  rlen : t.rlen = s.rlen
  valid : t.status.resValid = s.status.resValid

/-- The hidden buffers (R31, R32). -/
structure SameHidden (s t : State) : Prop where
  wbuf : t.wbuf = s.wbuf
  hbuf : t.hbuf = s.hbuf

/-- The working buffer holds `w`, and the header buffer is as it was (R31, R32). -/
structure WorkIs (w : Bytes) (s t : State) : Prop where
  wbuf : t.wbuf = w
  hbuf : t.hbuf = s.hbuf

/-- What is not state of the block (R40): parameters, stream, pending acts, observations. -/
structure SameOutside (s t : State) : Prop where
  par : t.par = s.par
  stream : t.stream = s.stream
  inputs : t.inputs = s.inputs
  obs : t.obs = s.obs

/-- The result group after the clearing that DECRYPT, UNPAD and RESOLVE begin with (R30): invalid, length
0, and the bytes themselves left where they are (R262). -/
structure ClearedResult (s t : State) : Prop where
  rbuf : t.rbuf = s.rbuf
  rlen : t.rlen = 0#32
  valid : t.status.resValid = false

/-- The result group holds `u` (R30). -/
structure HasResult (u : Bytes) (t : State) : Prop where
  rbuf : t.rbuf = u
  rlen : t.rlen.toNat = u.length
  valid : t.status.resValid = true

/-- The packet group holds the Packet of header `h` and payload `p` (R29, R130 step 5). -/
structure HasPacket (h : Header) (p : Bytes) (t : State) : Prop where
  pver : t.pkt.pver = h.pver
  plver : t.pkt.plver = h.plver
  devid : t.pkt.devid = h.devid
  flags : t.pkt.flags = h.flags
  iv : t.pkt.iv = h.iv
  plen : t.pkt.plen.toNat = p.length
  pbuf : t.pbuf = p
  valid : t.status.pktValid = true

/-! ## The invariant -/

/-- R218: the rows of the code table: kind, reason, and whether the row carries a description. -/
def errorRows : List (BitVec 4 × BitVec 4 × Bool) :=
  [(1#4, 0#4, false), (2#4, 1#4, false), (2#4, 2#4, false), (2#4, 3#4, true), (3#4, 0#4, false), (4#4, 1#4, false),
    (4#4, 2#4, false)] ++
  [(4#4, 3#4, false), (5#4, 1#4, false), (6#4, 1#4, true), (6#4, 2#4, false), (15#4, 1#4, false), (15#4, 2#4, false),
    (15#4, 3#4, false), (15#4, 4#4, false)]

/-- R22, R23, R218: the error registers are a row of the table when ERR = 1, and 0 otherwise. -/
def State.reportOk (s : State) : Bool :=
  if s.status.err then
    s.errInfo < 2 ^ s.par.descW &&
      errorRows.any fun row => row.1 == s.errKind && row.2.1 == s.errReason && (row.2.2 || s.errInfo == 0)
  else s.errKind == 0#4 && s.errReason == 0#4 && s.errInfo == 0

/-- R24, R33, R239: what holds in each phase: the outstanding request, the operation, and the state of the
groups the operation has cleared or reads. -/
def State.WaitOk (s : State) : Prop :=
  match s.phase with
  | .idle => s.out = none ∧ s.oper = none
  | .hdrRead => s.out = some (.src Config.headerLen) ∧ s.oper = some .decode ∧ s.status.pktValid = false
  | .payRead =>
    s.out = some (.src (headerFields s.hbuf).plen.toNat) ∧ s.oper = some .decode ∧ s.status.pktValid = false ∧
      1 ≤ (headerFields s.hbuf).plen.toNat ∧ (headerFields s.hbuf).plen.toNat ≤ s.par.maxPayload ∧
      magicMatches s.hbuf = true
  | .ciphWait =>
    s.status.resValid = false ∧ s.key.length = Config.keyLen ∧
      ((s.oper = some .decrypt ∧ s.out = some (.ciph s.key s.opiv s.ibuf) ∧ s.ibuf.length % Config.block = 0) ∨
        (s.oper = some .resolve ∧ s.status.pktValid = true ∧ isEncrypted s.pkt.flags = true ∧
          s.out = some (.ciph s.key s.pkt.iv s.pbuf) ∧ s.pbuf.length % Config.block = 0))
  | .dcmpWait =>
    s.status.resValid = false ∧ s.oper = some .resolve ∧ s.status.pktValid = true ∧
      isSnappy s.pkt.flags = true ∧ isCompressed s.pkt.flags = false ∧
      Config.trailerLen ≤ s.wbuf.length ∧ s.out = some (.dcmp (withoutTrailer s.wbuf))

/-- The invariant of the data: the operand registers, the groups that are valid, the header buffer. -/
structure State.DataOk (s : State) : Prop where
  /-- R7 -/
  params : s.par.wf = true
  /-- R25 -/
  keyLength : s.klen.toNat = s.key.length
  /-- R25 -/
  keyCapacity : s.key.length ≤ s.par.keyMax
  /-- R26 -/
  opivLength : s.opiv.length = Config.ivLen
  /-- R27 -/
  ibufLength : s.ilen.toNat = s.ibuf.length
  /-- R27 -/
  ibufCapacity : s.ibuf.length ≤ s.par.maxOperand
  /-- R28 -/
  header : s.status.hdrValid = true → s.hfMagic = Config.magic ∧ s.hf.wf = true
  /-- R29 -/
  packet : s.status.pktValid = true →
    s.pkt.plen.toNat = s.pbuf.length ∧ 1 ≤ s.pbuf.length ∧ s.pbuf.length ≤ s.par.maxPayload ∧
      s.pkt.devid.length = Config.devidLen ∧ s.pkt.iv.length = Config.ivLen
  /-- R30 -/
  result : s.status.resValid = true → s.rlen.toNat = s.rbuf.length
  /-- R30 -/
  noResult : s.status.resValid = false → s.rlen = 0#32
  /-- R32 -/
  headerBuffer : s.hbuf.length = Config.headerLen

/-- The invariant of the states a run reaches: the data, the status bits, the error report and the wait. -/
structure State.Inv (s : State) : Prop extends State.DataOk s where
  /-- R22: "`BUSY` and `DONE` are never both 1" -/
  notBoth : (s.status.busy && s.status.done) = false
  /-- R22: "`ERR = 1` implies `DONE = 1`" -/
  errDone : s.status.err = true → s.status.done = true
  /-- R24: "`BUSY = 1` exactly when `PHASE != IDLE`" -/
  busyPhase : s.status.busy = true ↔ s.phase ≠ .idle
  /-- R22, R23, R218 -/
  report : s.reportOk = true
  /-- R24, R33 -/
  waiting : s.WaitOk

/-- The buffers' lengths are what their length registers say, and within capacity (R25, R27, R29, R30,
R42): the canonical form of the block's memory. A buffer is the byte sequence itself, so equal contents
are equal data. -/
abbrev Memory.wf (s : State) : Prop :=
  s.klen.toNat = s.key.length ∧ s.ilen.toNat = s.ibuf.length ∧ s.ibuf.length ≤ s.par.maxOperand ∧
    (s.status.pktValid = true → s.pkt.plen.toNat = s.pbuf.length) ∧
    (s.status.resValid = true → s.rlen.toNat = s.rbuf.length)

/-! ## The operations as pure functions -/

/-- R145: `decrypt(key, iv, c)`. -/
def decryptFun (key iv c : Bytes) : Except Err Bytes :=
  if key.length ≠ Config.keyLen then .error .invalidKey
  else if c.length % Config.block ≠ 0 then .error .notPadded
  else unpad (Config.cbcDecrypt key iv c)

/-- R170 steps 3 to 5, on the working value `r`. -/
def laterStagesFun (p : Params) (flags : BitVec 16) (r : Bytes) : Except Err Bytes :=
  if flags &&& Config.flagCompressed ≠ 0#16 then .error .compressedFlag
  else if flags &&& Config.flagSnappy ≠ 0#16 then
    if r.length < Config.trailerLen then .error .shorterThanTrailer
    else
      match Config.decompress (r.take (r.length - Config.trailerLen)) with
      | .fail desc => .error (.decompressFailed (descOn p desc))
      | .ok o => if p.maxResult < o.length then .error .capacity else .ok o
  else .ok r

/-- R170: `resolvePayload(packet, key)` with `packet = {flags, iv, payload}`. -/
def resolveFun (p : Params) (flags : BitVec 16) (iv payload key : Bytes) : Except Err Bytes :=
  if flags &&& Config.flagEncrypted ≠ 0#16 then
    match decryptFun key iv payload with
    | .error e => .error e
    | .ok r => laterStagesFun p flags r
  else laterStagesFun p flags payload

/-- R130: `decodeFrame()` against the stub source `STREAM st EOF(desc)` of R102, which serves the bytes of
`st` in order and answers `fail(desc)` to a read it cannot fill. -/
def decodeFun (p : Params) (st : Bytes) (desc : Nat) : Except Err (Header × Bytes) :=
  if st.length < Config.headerLen then .error .headerTooShort
  else
    match parseHeader (st.take Config.headerLen) with
    | none => .error .invalidMagic
    | some h =>
      if h.plen.toNat = 0 then .error .noPayloadLength
      else if p.maxPayload < h.plen.toNat then .error .capacity
      else if (st.drop Config.headerLen).length < h.plen.toNat then .error (.payloadShort (descOn p desc))
      else .ok (h, (st.drop Config.headerLen).take h.plen.toNat)

/-- The answers that stub source gives to a DECODE on the stream `st`, failing reads consuming nothing. -/
def sourceAnswers (p : Params) (st : Bytes) (desc : Nat) : List Input :=
  if st.length < Config.headerLen then [.srcFail desc 0]
  else
    match parseHeader (st.take Config.headerLen) with
    | none => [.srcOk]
    | some h =>
      if h.plen.toNat = 0 ∨ p.maxPayload < h.plen.toNat then [.srcOk]
      else if (st.drop Config.headerLen).length < h.plen.toNat then [.srcOk, .srcFail desc 0]
      else [.srcOk, .srcOk]

/-- R68: what a DECODE's successful reads consume of the stream. -/
def consumedBy (p : Params) (st : Bytes) (desc : Nat) : Nat :=
  match decodeFun p st desc with
  | .ok (h, _) => Config.headerLen + h.plen.toNat
  | .error .headerTooShort => 0
  | .error _ => Config.headerLen

/-! ## What is admitted -/

/-- Whether the source's `ok` has a meaning now: a `SrcRead` is outstanding and the stream can fill it. -/
def State.sourceReady (s : State) : Bool :=
  match s.out with
  | some (.src n) => n ≤ s.stream.length
  | _ => false

/-- The registers a host may read when BUSY = 0 (R38). -/
def State.mayRead (s : State) : Reg → Bool
  | .status | .errKind | .errReason | .errInfo | .klen | .opiv | .ilen | .ibuf | .rlen => true
  | .hfMagic | .hfPver | .hfDevid | .hfFlags | .hfIv | .hfPlver | .hfPlen => s.status.hdrValid
  | .pktPver | .pktPlver | .pktDevid | .pktFlags | .pktIv | .pktPlen | .pbuf => s.status.pktValid
  | .rbuf => s.status.resValid
  | .cmd | .key => false

/-- R38, R190, R191, R197: whether the spec gives the act a step in this state. -/
def State.admits (s : State) : Input → Bool
  | .write reg v =>
    !s.status.busy &&
      ((reg == 0x00#8 && v.length == 1) || (reg == 0x09#8 && decide (v.length ≤ s.par.keyMax)) ||
        (reg == 0x0A#8 && v.length == Config.ivLen) || (reg == 0x0C#8 && decide (v.length ≤ s.par.maxOperand)))
  | .read reg =>
    match Reg.ofNumber reg with
    | none => false
    | some r => (r == .status) || (!s.status.busy && s.mayRead r)
  | .memRead .ibuf a n => !s.status.busy && decide (a + n ≤ s.ilen.toNat)
  | .memRead .pbuf a n => !s.status.busy && s.status.pktValid && decide (a + n ≤ s.pkt.plen.toNat)
  | .memRead .rbuf a n => !s.status.busy && s.status.resValid && decide (a + n ≤ s.rlen.toNat)
  | .memRead _ _ _ => false
  | .memWrite .ibuf a v => !s.status.busy && decide (a + v.length ≤ s.ilen.toNat)
  | .memWrite _ _ _ => false
  | .inspectResolve => !s.status.busy
  | .reset _ => true
  | .arrive _ => true
  | .srcOk => s.sourceReady
  | .srcFail _ _ =>
    match s.out with
    | some (.src _) => true
    | _ => false
  | .ciphAnswer => s.phase == .ciphWait
  | .dcmpAnswer => s.phase == .dcmpWait

/-- Whether the act is a host access: everything the host does but apply reset. -/
def Input.isHostAccess : Input → Bool
  | .write _ _ | .read _ | .memRead _ _ _ | .memWrite _ _ _ | .inspectResolve => true
  | .reset _ | .arrive _ | .srcOk | .srcFail _ _ | .ciphAnswer | .dcmpAnswer => false

/-- Whether the act writes an operand register (R190). -/
def Input.writesOperand : Input → Bool
  | .write reg _ => reg != 0x00#8
  | .memWrite _ _ _ => true
  | .read _ | .memRead _ _ _ | .inspectResolve | .reset _ | .arrive _ | .srcOk | .srcFail _ _ | .ciphAnswer | .dcmpAnswer => false

/-- R33, R231: whether the act is the answer the block awaits. -/
def State.awaits (s : State) : Input → Bool
  | .srcOk => s.sourceReady
  | .srcFail _ _ => s.phase == .hdrRead || s.phase == .payRead
  | .ciphAnswer => s.phase == .ciphWait
  | .dcmpAnswer => s.phase == .dcmpWait
  | .write _ _ | .read _ | .memRead _ _ _ | .memWrite _ _ _ | .inspectResolve | .reset _ | .arrive _ => false

/-- How many answers an operation in this phase can still need (R239). -/
def Phase.answersLeft : Phase → Nat
  | .idle => 0
  | .payRead => 1
  | .dcmpWait => 1
  | .hdrRead => 2
  | .ciphWait => 2

/-- R64, R196: the shape the block guarantees of a request. -/
def Request.shapeOk (p : Params) : Request → Prop
  | .src n => n = Config.headerLen ∨ (1 ≤ n ∧ n ≤ p.maxPayload)
  | .ciph key iv ct => key.length = Config.keyLen ∧ iv.length = Config.ivLen ∧ ct.length % Config.block = 0
  | .dcmp _ => True

/-- R239: the table of phase transitions; staying is a step that is not the operation's own. -/
def Phase.mayFollow : Phase → Phase → Bool
  | .idle, .idle | .idle, .hdrRead | .idle, .ciphWait | .idle, .dcmpWait => true
  | .hdrRead, .hdrRead | .hdrRead, .payRead | .hdrRead, .idle => true
  | .payRead, .payRead | .payRead, .idle => true
  | .ciphWait, .ciphWait | .ciphWait, .dcmpWait | .ciphWait, .idle => true
  | .dcmpWait, .dcmpWait | .dcmpWait, .idle => true
  | _, _ => false

/-! ## What no rule reads -/

/-- R41, U11: the state with everything that is without value replaced by fixed contents: the groups whose
valid bit is 0, WBUF between two waits, and HBUF outside PAY_READ. Two states with the same `visible` differ
in nothing a rule reads. -/
def State.visible (s : State) : State :=
  { s with
    hfMagic := if s.status.hdrValid then s.hfMagic else []
    hf := if s.status.hdrValid then s.hf else State.reset.hf
    pkt := if s.status.pktValid then s.pkt else State.reset.pkt
    pbuf := if s.status.pktValid then s.pbuf else []
    rbuf := if s.status.resValid then s.rbuf else []
    wbuf := []
    hbuf := if s.phase = .payRead then s.hbuf else [] }

end Sys2Proof.Machine
end

