-- ==== Sys2Proof/Certificates/Slice0/Obligations.lean ====
section
/-! DEFINITION. The statements for the provers, one `def Obligations.<Name> : Prop` each. The terms they use
are those of Sys2Proof/Safety.lean. -/

open Sys2Proof Sys2Proof.Machine

/-! ## Reset -/

/-- R39: the state after reset. The contents of HF, PKT, PBUF, RBUF, WBUF and HBUF are not stated: they are
without value, so only that no host access reads them. -/
def Obligations.ResetLeavesSpecifiedValues : Prop :=
  State.reset.phase = .idle ∧ State.reset.out = none ∧ State.reset.status.word = 0x00#8 ∧
  State.reset.errKind = 0#4 ∧ State.reset.errReason = 0#4 ∧ State.reset.errInfo = 0 ∧
  State.reset.klen = 0#8 ∧ State.reset.key = [] ∧ State.reset.opiv = List.replicate 16 0x00#8 ∧
  State.reset.ilen = 0#32 ∧ State.reset.ibuf = [] ∧ State.reset.rlen = 0#32 ∧
  (∀ r ∈ [Reg.hfMagic, .hfPver, .hfDevid, .hfFlags, .hfIv, .hfPlver, .hfPlen, .pktPver, .pktPlver, .pktDevid, .pktFlags,
      .pktIv, .pktPlen, .pbuf, .rbuf], State.reset.readReg r = .error .noValue) ∧
  (∀ sp ∈ [Space.pbuf, .rbuf, .wbuf, .hbuf], ∀ a, State.reset.peek sp a = none)

/-- R250, R251: reset, whatever the state was, also during an operation. The parameters, the stream, the acts to
come and the record stay (log entry 15); of the stream, what the source had consumed for an abandoned read is gone.
The contents of the groups without value are those of log entry 6. -/
def Obligations.ResetActRestoresResetState : Prop :=
  ∀ (s : State) (k : Nat) (rest : List Input), s.inputs = .reset k :: rest →
    (∀ n, s.out = some (.src n) →
      step s = .next { State.reset with par := s.par, stream := s.stream.drop k, inputs := rest, obs := s.obs }) ∧
    ((∀ n, s.out ≠ some (.src n)) →
      step s = .next { State.reset with par := s.par, stream := s.stream, inputs := rest, obs := s.obs })

/-- The invariant holds at reset. -/
def Obligations.ResetMeetsInvariant : Prop :=
  State.reset.Inv

/-! ## Encoding -/

/-- R98, R99, R101: words written out bit by bit decode to what the tables name. -/
def Obligations.SampleWordsDecode : Prop :=
  decode (.cmd 0b00000001#8) = .ok .parse ∧ decode (.cmd 0b00000010#8) = .ok .decode ∧
  decode (.cmd 0b00000011#8) = .ok .decrypt ∧ decode (.cmd 0b00000100#8) = .ok .unpad ∧
  decode (.cmd 0b00000101#8) = .ok .resolve ∧ decode (.cmd 0b00000000#8) = .ok .illegalOp0 ∧
  decode (.cmd 0b00000110#8) = .ok .illegalOp6 ∧ decode (.cmd 0b00000111#8) = .ok .illegalOp7 ∧
  decode (.cmd 0b00001001#8) = .error (.reservedBits 0b00001001#8) ∧
  decode (.flags 0b1000000000000101#16) = .ok (.resolveF5 0b1000000000000000#16)

/-- Decode and encode agree: no bit of an instruction is dropped. -/
def Obligations.DecodeOfEncodeIsIdentity : Prop :=
  ∀ i : Instr, i.wf = true → decode (encode i) = .ok i

/-- The other direction: each code word has one meaning. -/
def Obligations.EncodeOfDecodeIsIdentity : Prop :=
  ∀ (w : CodeWord) (i : Instr), decode w = .ok i → encode i = w ∧ i.wf = true

/-- R92, R120: the header function, every field by the formula of R9. -/
def Obligations.HeaderFieldsByOffset : Prop :=
  ∀ h : Bytes, h.length = 40 →
    (parseHeader h).isSome = (h.take 4 == [0x55#8, 0x42#8, 0x4E#8, 0x54#8]) ∧
    ∀ f, parseHeader h = some f →
      f.pver.toNat = (h.getD 4 0).toNat * 2 ^ 24 + (h.getD 5 0).toNat * 2 ^ 16 + (h.getD 6 0).toNat * 2 ^ 8 + (h.getD 7 0).toNat ∧
      f.devid = (h.drop 8).take 6 ∧
      f.flags.toNat = (h.getD 14 0).toNat * 2 ^ 8 + (h.getD 15 0).toNat ∧
      f.iv = (h.drop 16).take 16 ∧
      f.plver.toNat = (h.getD 32 0).toNat * 2 ^ 24 + (h.getD 33 0).toNat * 2 ^ 16 + (h.getD 34 0).toNat * 2 ^ 8 + (h.getD 35 0).toNat ∧
      f.plen.toNat = (h.getD 36 0).toNat * 2 ^ 24 + (h.getD 37 0).toNat * 2 ^ 16 + (h.getD 38 0).toNat * 2 ^ 8 + (h.getD 39 0).toNat

/-! ## A step runs the decoded instruction -/

/-- R192, R171, R130: how a step runs the instruction of the code word it fetches: a command word, the second-level
opcode of a RESOLVE with a valid Packet, a header word; each moved past first. Which words count as fetched code
words is the model's choice (log entry 7). -/
def Obligations.StepRunsDecodedInstruction : Prop :=
  (∀ (s : State) (c : BitVec 8) (rest : List Input) (i : Instr), s.inputs = .write 0x00#8 [c] :: rest →
    ¬(c = 0x05#8 ∧ s.status.pktValid = true) → decode (.cmd c) = .ok i → step s = exec i { s with inputs := rest }) ∧
  (∀ (s : State) (rest : List Input) (i : Instr), s.inputs = .write 0x00#8 [0x05#8] :: rest → s.status.pktValid = true →
    decode (.flags s.pkt.flags) = .ok i → step s = exec i { s with inputs := rest }) ∧
  (∀ (s : State) (rest : List Input) (i : Instr), s.inputs = .srcOk :: rest → s.phase = .hdrRead → s.out = some (.src 40) →
    40 ≤ s.stream.length → decode (.header (s.stream.take 40)) = .ok i →
    step s = exec i { s with inputs := rest, stream := s.stream.drop 40 })

/-- A word of the opcode table placed from reset is the instruction the next step runs (the placing is the
model's choice, log entry 7). -/
def Obligations.PlacedTableWordRuns : Prop :=
  ∀ (nbits w : Nat) (i : Instr), decodeTableWord nbits w = some i →
    step (State.reset.withFetchWord nbits w) = exec i (State.reset.withFetchWord nbits w).pastWord

/-- R99: an illegal command word, by its operation code or by its reserved bits. -/
def Obligations.IllegalCommandWordsRefused : Prop :=
  ∀ (s : State) (c : BitVec 8) (rest : List Input), s.inputs = .write 0x00#8 [c] :: rest → s.status.busy = false →
    (c.extractLsb' 0 3 = 0#3 ∨ c.extractLsb' 0 3 = 6#3 ∨ c.extractLsb' 0 3 = 7#3 ∨ c.extractLsb' 3 5 ≠ 0#5) →
    ∃ t, step s = .next t ∧ t.Failed .illegalCommand ∧ SameOperands s t ∧ SameHidden s t ∧ SameHeader s t ∧ SamePacket s t ∧
      SameResult s t ∧
      SameOutside { s with inputs := rest } t

/-- R99: the three illegal rows of the opcode table as instructions. -/
def Obligations.IllegalOperationsComplete : Prop :=
  ∀ (s : State) (i : Instr), s.status.busy = false → i ∈ [Instr.illegalOp0, .illegalOp6, .illegalOp7] →
    ∃ t, exec i s = .next t ∧ t.Failed .illegalCommand ∧ SameOperands s t ∧ SameHidden s t ∧ SameHeader s t ∧ SamePacket s t ∧
      SameResult s t ∧
      SameOutside s t

/-! ## PARSE -/

/-- R121: PARSE, its three outcomes and its frame. -/
def Obligations.ParseDecodesOrFails : Prop :=
  ∀ s : State, s.status.busy = false →
    (s.ilen = 40#32 → s.ibuf.take 4 = [0x55#8, 0x42#8, 0x4E#8, 0x54#8] →
      ∃ t, exec .parse s = .next t ∧ t.Succeeded ∧ t.status.hdrValid = true ∧ t.hfMagic = [0x55#8, 0x42#8, 0x4E#8, 0x54#8] ∧
        t.hf = headerFields s.ibuf ∧ SameOperands s t ∧ SameHidden s t ∧ SamePacket s t ∧ SameResult s t ∧ SameOutside s t) ∧
    (s.ilen = 40#32 → s.ibuf.take 4 ≠ [0x55#8, 0x42#8, 0x4E#8, 0x54#8] →
      ∃ t, exec .parse s = .next t ∧ t.Failed .invalidMagic ∧ t.status.hdrValid = false ∧
        SameOperands s t ∧ SameHidden s t ∧ SamePacket s t ∧ SameResult s t ∧ SameOutside s t) ∧
    (s.ilen ≠ 40#32 →
      ∃ t, exec .parse s = .next t ∧ t.Failed .parseLength ∧ SameHeader s t ∧
        SameOperands s t ∧ SameHidden s t ∧ SamePacket s t ∧ SameResult s t ∧ SameOutside s t)

/-! ## DECODE and the header word -/

/-- R131, R239: DECODE is accepted: the old Packet is invalid from now on and `SrcRead(40)` is sent. -/
def Obligations.DecodeRequestsHeader : Prop :=
  ∀ s : State, s.status.busy = false →
    ∃ t, exec .decode s = .next t ∧ t.Waits .decode .hdrRead (.src 40) ∧ t.status.pktValid = false ∧ t.pkt = s.pkt ∧ t.pbuf = s.pbuf ∧
      SameOperands s t ∧ SameHidden s t ∧ SameHeader s t ∧ SameResult s t ∧
      SameOutside { s with obs := .request (.src 40) :: s.obs } t

/-- R130 steps 2 to 4, R64: an awaited valid header whose declared length is between 1 and MAX_PAYLOAD:
the payload is asked for, and nothing is committed yet. -/
def Obligations.HeaderWordRequestsPayload : Prop :=
  ∀ (s : State) (h : Header), s.phase = .hdrRead → s.out = some (.src 40) → s.status.busy = true → s.oper = some .decode →
    1 ≤ h.plen.toNat → h.plen.toNat ≤ s.par.maxPayload →
    ∃ t, exec (.informHeader h) s = .next t ∧ t.phase = .payRead ∧ t.out = some (.src h.plen.toNat) ∧ t.oper = some .decode ∧
      t.status = s.status ∧ t.hbuf = encodeHeader h ∧ t.errKind = s.errKind ∧ t.errReason = s.errReason ∧ t.errInfo = s.errInfo ∧
      t.wbuf = s.wbuf ∧ SameOperands s t ∧ SameHeader s t ∧ SamePacket s t ∧ SameResult s t ∧
      SameOutside { s with obs := .request (.src h.plen.toNat) :: s.obs } t

/-- R132, R136: a valid header that declares length 0, or more than MAX_PAYLOAD, ends DECODE with exactly 40
bytes consumed and no payload read. -/
def Obligations.DeclaredLengthChecked : Prop :=
  ∀ (s : State) (rest : List Input) (h : Header), s.inputs = .srcOk :: rest → s.phase = .hdrRead → s.out = some (.src 40) →
    40 ≤ s.stream.length → parseHeader (s.stream.take 40) = some h →
    (h.plen.toNat = 0 →
      ∃ t, step s = .next t ∧ t.Failed .noPayloadLength ∧ SameOperands s t ∧ t.wbuf = s.wbuf ∧ t.hbuf = s.stream.take 40 ∧
        SameHeader s t ∧ SamePacket s t ∧ SameResult s t ∧
        SameOutside { s with inputs := rest, stream := s.stream.drop 40 } t) ∧
    (s.par.maxPayload < h.plen.toNat →
      ∃ t, step s = .next t ∧ t.Failed .capacity ∧ SameOperands s t ∧ t.wbuf = s.wbuf ∧ t.hbuf = s.stream.take 40 ∧ SameHeader s t ∧
        SamePacket s t ∧ SameResult s t ∧
        SameOutside { s with inputs := rest, stream := s.stream.drop 40 } t)

/-- R105, R210, R220: a DECODE whose 40 header bytes do not begin with "UBNT" ends with `InvalidMagic`,
whatever else is wrong with them, after exactly 40 bytes. -/
def Obligations.WrongMagicEndsDecode : Prop :=
  ∀ (s : State) (rest : List Input), s.inputs = .srcOk :: rest → s.phase = .hdrRead → s.out = some (.src 40) →
    40 ≤ s.stream.length → s.stream.take 4 ≠ [0x55#8, 0x42#8, 0x4E#8, 0x54#8] →
    ∃ t, step s = .next t ∧ t.Failed .invalidMagic ∧ SameOperands s t ∧ t.wbuf = s.wbuf ∧ t.hbuf = s.stream.take 40 ∧ SameHeader s t ∧
      SamePacket s t ∧ SameResult s t ∧
      SameOutside { s with inputs := rest, stream := s.stream.drop 40 } t

/-- R133, R134, R211: a failing source: no description for the header, the description for the payload. -/
def Obligations.SourceFailureEndsDecode : Prop :=
  ∀ (s : State) (d k n : Nat) (rest : List Input), s.inputs = .srcFail d k :: rest → s.out = some (.src n) → d < 2 ^ s.par.descW →
    (s.phase = .hdrRead → ∃ t, step s = .next t ∧ t.Failed .headerTooShort ∧ SameOperands s t ∧ SameHidden s t ∧ SameHeader s t ∧
      SamePacket s t ∧
      SameResult s t ∧ SameOutside { s with inputs := rest, stream := s.stream.drop k } t) ∧
    (s.phase = .payRead → ∃ t, step s = .next t ∧ t.Failed (.payloadShort d) ∧ SameOperands s t ∧ SameHidden s t ∧ SameHeader s t ∧
      SamePacket s t ∧
      SameResult s t ∧ SameOutside { s with inputs := rest, stream := s.stream.drop k } t)

/-- R74, R131, R69: the payload arrives and the Packet is committed whole, from the header buffer and the
bytes read, with no other group written. -/
def Obligations.PayloadCommitsPacket : Prop :=
  ∀ (s : State) (n : Nat) (rest : List Input), s.Inv → s.inputs = .srcOk :: rest → s.phase = .payRead → s.out = some (.src n) →
    n ≤ s.stream.length →
    ∃ t, step s = .next t ∧ t.Succeeded ∧ HasPacket (headerFields s.hbuf) (s.stream.take n) t ∧
      t.pkt.plen = (headerFields s.hbuf).plen ∧ SameOperands s t ∧ SameHidden s t ∧ SameHeader s t ∧ SameResult s t ∧
      SameOutside { s with inputs := rest, stream := s.stream.drop n } t

/-- R130, R131, R68, R220: the whole of DECODE against the stub source of R102 refines `decodeFun`: from any
state with BUSY = 0, with every check in its order, the stream consumed as R68 says, and nothing else of the
block's registers changed. What a failing read consumes is nothing here, as the stub of R102 serves it. -/
def Obligations.DecodeRefinesFramer : Prop :=
  ∀ (s : State) (desc : Nat) (rest : List Input), s.status.busy = false →
    s.inputs = .write 0x00#8 [0x02#8] :: (sourceAnswers s.par s.stream desc ++ rest) →
    ∃ t, Host.Core.run core (1 + (sourceAnswers s.par s.stream desc).length) s = .next t ∧
      t.inputs = rest ∧ t.par = s.par ∧ t.stream = s.stream.drop (consumedBy s.par s.stream desc) ∧
      SameOperands s t ∧ SameHeader s t ∧ SameResult s t ∧
      (∀ e, decodeFun s.par s.stream desc = .error e → t.Failed e ∧ t.status.pktValid = false) ∧
      (∀ h p, decodeFun s.par s.stream desc = .ok (h, p) → t.Succeeded ∧ HasPacket h p t)

/-! ## UNPAD -/

/-- R160: the remover's pseudocode, on the empty buffer and on a buffer with last byte `x`. -/
def Obligations.UnpadChecksInOrder : Prop :=
  unpad [] = .error .noData ∧
  ∀ (p : Bytes) (x : Byte),
    (x.toNat = 0 ∨ (p ++ [x]).length < x.toNat → unpad (p ++ [x]) = .error .notPadded) ∧
    (1 ≤ x.toNat → x.toNat ≤ (p ++ [x]).length →
      ((∃ y ∈ (p ++ [x]).drop ((p ++ [x]).length - x.toNat), y ≠ x) → unpad (p ++ [x]) = .error .structureInvalid) ∧
      ((∀ y ∈ (p ++ [x]).drop ((p ++ [x]).length - x.toNat), y = x) →
        unpad (p ++ [x]) = .ok ((p ++ [x]).take ((p ++ [x]).length - x.toNat))))

/-- R95: the buffers the remover accepts are exactly the PKCS7 padded ones, and the data comes back. -/
def Obligations.UnpadAcceptsExactlyPadded : Prop :=
  ∀ b u : Bytes, unpad b = .ok u ↔ ∃ n : Nat, 1 ≤ n ∧ n ≤ 255 ∧ b = u ++ List.replicate n (BitVec.ofNat 8 n)

/-- R161: UNPAD, its two outcomes and its frame; KEY is not read. That a result longer than MAX_RESULT succeeds too is
the model's choice (log entry 12). -/
def Obligations.UnpadCommandRunsRemover : Prop :=
  ∀ s : State, s.status.busy = false → s.ilen.toNat = s.ibuf.length →
    (∀ u, unpad s.ibuf = .ok u → ∃ t, exec .unpad s = .next t ∧ t.Succeeded ∧ HasResult u t ∧
      SameOperands s t ∧ WorkIs u s t ∧ SameHeader s t ∧ SamePacket s t ∧ SameOutside s t) ∧
    (∀ e, unpad s.ibuf = .error e → ∃ t, exec .unpad s = .next t ∧ t.Failed e ∧ ClearedResult s t ∧
      SameOperands s t ∧ WorkIs s.ibuf s t ∧ SameHeader s t ∧ SamePacket s t ∧ SameOutside s t)

/-! ## DECRYPT -/

/-- R146, R149, R196: DECRYPT with a 16-byte key and a ciphertext of whole blocks makes one `CiphCall` with
KEY, OPIV and a private copy of IBUF. -/
def Obligations.DecryptCallsCipher : Prop :=
  ∀ s : State, s.status.busy = false → s.key.length = 16 → s.ibuf.length % 16 = 0 →
    ∃ t, exec .decrypt s = .next t ∧ t.Waits .decrypt .ciphWait (.ciph s.key s.opiv s.ibuf) ∧ WorkIs s.ibuf s t ∧ ClearedResult s t ∧
      SameOperands s t ∧ SameHeader s t ∧ SamePacket s t ∧
      SameOutside { s with obs := .request (.ciph s.key s.opiv s.ibuf) :: s.obs } t

/-- R147, R148, R221: the two preconditions of `decrypt`, in their order; no `CiphCall` is made. -/
def Obligations.DecryptPreconditionsInOrder : Prop :=
  ∀ s : State, s.status.busy = false →
    (s.key.length ≠ 16 → ∃ t, exec .decrypt s = .next t ∧ t.Failed .invalidKey ∧ ClearedResult s t ∧
      SameOperands s t ∧ WorkIs s.ibuf s t ∧ SameHeader s t ∧ SamePacket s t ∧ SameOutside s t) ∧
    (s.key.length = 16 → s.ibuf.length % 16 ≠ 0 → ∃ t, exec .decrypt s = .next t ∧ t.Failed .notPadded ∧ ClearedResult s t ∧
      SameOperands s t ∧ WorkIs s.ibuf s t ∧ SameHeader s t ∧ SamePacket s t ∧ SameOutside s t)

/-- R145, R146, R150: the whole of DECRYPT refines `decryptFun`, for every cipher collaborator; at most one
answer is needed, and IBUF is not observed as mutated. That a result longer than MAX_RESULT succeeds too is the
model's choice (log entry 12). -/
def Obligations.DecryptRefinesWrapper : Prop :=
  ∀ (s : State) (rest : List Input), s.Inv → s.status.busy = false →
    ∃ answers : List Input, (answers = [] ∨ answers = [.ciphAnswer]) ∧
      ∃ t, Host.Core.run core (1 + answers.length) { s with inputs := .write 0x00#8 [0x03#8] :: (answers ++ rest) } = .next t ∧
        t.inputs = rest ∧ t.stream = s.stream ∧ t.par = s.par ∧
        SameOperands s t ∧ SameHeader s t ∧ SamePacket s t ∧
        (∀ e, decryptFun s.key s.opiv s.ibuf = .error e → t.Failed e ∧ ClearedResult s t) ∧
        (∀ u, decryptFun s.key s.opiv s.ibuf = .ok u → t.Succeeded ∧ HasResult u t)

/-! ## RESOLVE -/

/-- R101, R170: RESOLVE with a valid Packet is the second-level opcode of its flags. -/
def Obligations.ResolveIsItsSecondLevelOpcode : Prop :=
  ∀ (s : State) (i : Instr), s.status.busy = false → s.status.pktValid = true → decode (.flags s.pkt.flags) = .ok i →
    exec .resolve s = exec i s

/-- R171, R194 reason 3: no valid Packet: refused, and nothing else changes. That a second-level opcode without
a Packet does the same is the model's choice (log entry 14). -/
def Obligations.ResolveWithoutPacketRefused : Prop :=
  ∀ (s : State) (rest : BitVec 16) (i : Instr), s.status.busy = false → s.status.pktValid = false →
    i ∈ [Instr.resolve, .resolveF0 rest, .resolveF1 rest, .resolveF2 rest, .resolveF3 rest, .resolveF4 rest, .resolveF5 rest,
      .resolveF6 rest, .resolveF7 rest] →
    ∃ t, exec i s = .next t ∧ t.Failed .noPacket ∧ SameOperands s t ∧ SameHidden s t ∧ SameHeader s t ∧ SamePacket s t ∧ SameResult s t ∧
      SameOutside s t

/-- R177, R94: no relevant flag: the payload is the result, for every key, whatever bits 15:3 are. -/
def Obligations.ResolvePlainReturnsPayload : Prop :=
  ∀ (s : State) (rest : BitVec 16) (i : Instr), s.status.busy = false → s.status.pktValid = true →
    s.pkt.flags &&& 0x0007#16 = 0x0000#16 → s.pkt.plen.toNat = s.pbuf.length → i ∈ [Instr.resolve, .resolveF0 rest] →
    ∃ t, exec i s = .next t ∧ t.Succeeded ∧ HasResult s.pbuf t ∧ t.rlen = s.pkt.plen ∧
      SameOperands s t ∧ WorkIs s.pbuf s t ∧ SameHeader s t ∧ SamePacket s t ∧ SameOutside s t

/-- R174: Encrypted clear and Compressed set: `UnsupportedFlag(1)`, whatever SnappyCompressed is; no
collaborator is called. -/
def Obligations.ResolveLegacyUnsupported : Prop :=
  ∀ (s : State) (rest : BitVec 16) (i : Instr), s.status.busy = false → s.status.pktValid = true →
    ((s.pkt.flags &&& 0x0007#16 = 0x0002#16 ∧ i ∈ [Instr.resolve, .resolveF2 rest]) ∨
      (s.pkt.flags &&& 0x0007#16 = 0x0006#16 ∧ i ∈ [Instr.resolve, .resolveF6 rest])) →
    ∃ t, exec i s = .next t ∧ t.Failed .compressedFlag ∧ ClearedResult s t ∧
      SameOperands s t ∧ WorkIs s.pbuf s t ∧ SameHeader s t ∧ SamePacket s t ∧ SameOutside s t

/-- R175, R176, R257: only SnappyCompressed set: the payload less its last 10 bytes goes to the decompressor;
fewer than 10 bytes: no call. -/
def Obligations.ResolveSnappyStripsTrailer : Prop :=
  ∀ (s : State) (rest : BitVec 16) (i : Instr), s.status.busy = false → s.status.pktValid = true →
    s.pkt.flags &&& 0x0007#16 = 0x0004#16 → i ∈ [Instr.resolve, .resolveF4 rest] →
    (10 ≤ s.pbuf.length → ∃ t, exec i s = .next t ∧
      t.Waits .resolve .dcmpWait (.dcmp (s.pbuf.take (s.pbuf.length - 10))) ∧ ClearedResult s t ∧
      SameOperands s t ∧ WorkIs s.pbuf s t ∧ SameHeader s t ∧ SamePacket s t ∧
      SameOutside { s with obs := .request (.dcmp (s.pbuf.take (s.pbuf.length - 10))) :: s.obs } t) ∧
    (s.pbuf.length < 10 → ∃ t, exec i s = .next t ∧ t.Failed .shorterThanTrailer ∧ ClearedResult s t ∧
      SameOperands s t ∧ WorkIs s.pbuf s t ∧ SameHeader s t ∧ SamePacket s t ∧ SameOutside s t)

/-- R173: Encrypted set, whatever the two other flags are: the key and length checks, then one `CiphCall`
with KEY, the Packet's own iv and the whole payload. -/
def Obligations.ResolveEncryptedCallsCipher : Prop :=
  ∀ (s : State) (rest : BitVec 16) (i : Instr), s.status.busy = false → s.status.pktValid = true →
    ((s.pkt.flags &&& 0x0007#16 = 0x0001#16 ∧ i ∈ [Instr.resolve, .resolveF1 rest]) ∨
      (s.pkt.flags &&& 0x0007#16 = 0x0003#16 ∧ i ∈ [Instr.resolve, .resolveF3 rest]) ∨
      (s.pkt.flags &&& 0x0007#16 = 0x0005#16 ∧ i ∈ [Instr.resolve, .resolveF5 rest]) ∨
      (s.pkt.flags &&& 0x0007#16 = 0x0007#16 ∧ i ∈ [Instr.resolve, .resolveF7 rest])) →
    (s.key.length = 16 → s.pbuf.length % 16 = 0 → ∃ t, exec i s = .next t ∧
      t.Waits .resolve .ciphWait (.ciph s.key s.pkt.iv s.pbuf) ∧ ClearedResult s t ∧
      SameOperands s t ∧ WorkIs s.pbuf s t ∧ SameHeader s t ∧ SamePacket s t ∧
      SameOutside { s with obs := .request (.ciph s.key s.pkt.iv s.pbuf) :: s.obs } t) ∧
    (s.key.length ≠ 16 → ∃ t, exec i s = .next t ∧ t.Failed .invalidKey ∧ ClearedResult s t ∧
      SameOperands s t ∧ WorkIs s.pbuf s t ∧ SameHeader s t ∧ SamePacket s t ∧ SameOutside s t) ∧
    (s.key.length = 16 → s.pbuf.length % 16 ≠ 0 → ∃ t, exec i s = .next t ∧ t.Failed .notPadded ∧ ClearedResult s t ∧
      SameOperands s t ∧ WorkIs s.pbuf s t ∧ SameHeader s t ∧ SamePacket s t ∧ SameOutside s t)

/-- R170, R171, R172, R223: the whole of RESOLVE refines `resolveFun`, for every cipher and every decompressor:
at most one answer of each, in that order, and the Packet stays. A description counts by its DESC_W bits (log entry 2);
that a decompressed answer above MAX_RESULT is `Refused(4)` at the default MAX_RESULT too, and that no other result is held against
MAX_RESULT, is the model's choice (log entry 12). -/
def Obligations.ResolveRefinesPipeline : Prop :=
  ∀ (s : State) (rest : List Input), s.Inv → s.status.busy = false → s.status.pktValid = true →
    ∃ answers : List Input, answers ∈ [[], [Input.ciphAnswer], [.dcmpAnswer], [.ciphAnswer, .dcmpAnswer]] ∧
      ∃ t, Host.Core.run core (1 + answers.length) { s with inputs := .write 0x00#8 [0x05#8] :: (answers ++ rest) } = .next t ∧
        t.inputs = rest ∧ t.stream = s.stream ∧ t.par = s.par ∧
        SameOperands s t ∧ SameHeader s t ∧ SamePacket s t ∧
        (∀ e, resolveFun s.par s.pkt.flags s.pkt.iv s.pbuf s.key = .error e → t.Failed e ∧ ClearedResult s t) ∧
        (∀ u, resolveFun s.par s.pkt.flags s.pkt.iv s.pbuf s.key = .ok u → t.Succeeded ∧ HasResult u t)

/-- R172, R174: while the stored flags have Compressed set, no step of a RESOLVE, its acceptance or an answer
to it, gives a result or calls the decompressor. -/
def Obligations.CompressedNeverYieldsResult : Prop :=
  ∀ s t : State, s.Inv → s.status.pktValid = true → s.pkt.flags &&& 0x0002#16 ≠ 0#16 →
    (s.oper = some .resolve ∨ (s.status.busy = false ∧ ∃ rest, s.inputs = .write 0x00#8 [0x05#8] :: rest)) →
    step s = .next t → t.status.resValid = false ∧ t.phase ≠ .dcmpWait

/-- R178, R263: a decompression failure is an error and never an empty success; an empty answer is a genuine
empty success. R170: an answer longer than MAX_RESULT is `Refused(4)`; that this holds at the default MAX_RESULT too is
the model's choice (log entry 12). -/
def Obligations.DecompressorAnswerReported : Prop :=
  ∀ (s : State) (rest : List Input) (data : Bytes), s.Inv → s.inputs = .dcmpAnswer :: rest → s.phase = .dcmpWait →
    s.out = some (.dcmp data) →
    (∀ desc, desc < 2 ^ s.par.descW → Config.decompress data = .fail desc → ∃ t, step s = .next t ∧
      t.Failed (.decompressFailed desc) ∧ t.status.resValid = false ∧ t.rlen = 0#32) ∧
    (∀ o, Config.decompress data = .ok o → o.length ≤ s.par.maxResult → ∃ t, step s = .next t ∧ t.Succeeded ∧ HasResult o t) ∧
    (∀ o, Config.decompress data = .ok o → s.par.maxResult < o.length → ∃ t, step s = .next t ∧ t.Failed .capacity ∧
      t.status.resValid = false ∧ t.rlen = 0#32)

/-! ## The machine as a whole -/

/-- Every step keeps the invariant. -/
def Obligations.StepKeepsInvariant : Prop :=
  ∀ s t : State, s.Inv → step s = .next t → t.Inv

/-- R41, R43, U11: what is without value influences nothing: two states that differ only in it give outcomes
that differ only in it. So the contents State.reset gives to such registers (log entry 6) are immaterial. -/
def Obligations.UnreadableContentsInfluenceNothing : Prop :=
  ∀ s t : State, s.Inv → t.Inv → s.visible = t.visible →
    match step s, step t with
    | .next s', .next t' => s'.visible = t'.visible
    | .refused a, .refused b => a = b
    | _, _ => False

/-- R44: no operation changes an operand register: only a host write of one, and reset, do. -/
def Obligations.OperandsChangeOnlyByHost : Prop :=
  ∀ s t : State, step s = .next t → (∀ i rest, s.inputs = i :: rest → i.writesOperand = false ∧ ∀ k, i ≠ .reset k) → SameOperands s t

/-- R29: once valid, the packet group changes only when the next DECODE is accepted or at reset. -/
def Obligations.PacketImmutableOnceValid : Prop :=
  ∀ s t : State, s.Inv → step s = .next t → s.status.pktValid = true →
    (∀ k rest, s.inputs ≠ .write 0x00#8 [0x02#8] :: rest ∧ s.inputs ≠ .reset k :: rest) → SamePacket s t

/-- R28: only PARSE, and reset, write the header-field group. -/
def Obligations.HeaderGroupChangesOnlyByParse : Prop :=
  ∀ s t : State, step s = .next t → (∀ k rest, s.inputs ≠ .write 0x00#8 [0x01#8] :: rest ∧ s.inputs ≠ .reset k :: rest) → SameHeader s t

/-- R40: no step changes a parameter. (That they stand in State is the model's choice, log entry 2.) -/
def Obligations.ParametersNeverChange : Prop :=
  ∀ s t : State, step s = .next t → t.par = s.par

/-- R239: the only phase transitions. -/
def Obligations.PhaseTransitionsOnlyAsListed : Prop :=
  ∀ s t : State, s.Inv → step s = .next t → s.phase.mayFollow t.phase = true

/-- R64, R196: every request the block makes has the shape it guarantees, and a step makes at most one. -/
def Obligations.RequestsMeetTheirContracts : Prop :=
  ∀ s t : State, s.Inv → step s = .next t →
    t.obs = s.obs ∨ ∃ o, t.obs = o :: s.obs ∧ ∀ r, o = .request r → r.shapeOk s.par ∧ t.out = some r

/-- R219, R74: after an error outcome of an answered operation its own output group is invalid. -/
def Obligations.FailureLeavesNoPartialResult : Prop :=
  ∀ s t : State, s.Inv → s.status.busy = true → step s = .next t → t.status.err = true →
    (s.oper = some .decode → t.status.pktValid = false) ∧
    (s.oper ≠ some .decode → t.status.resValid = false ∧ t.rlen = 0#32 ∧ SamePacket s t)

/-- R231, R265: each awaited answer brings the operation nearer to its end: after at most two of them BUSY is
0. The statement is conditional on the answers, as R231 says. -/
def Obligations.EveryAnswerBringsCompletionNearer : Prop :=
  ∀ (s : State) (i : Input) (rest : List Input), s.Inv → s.status.busy = true → s.inputs = i :: rest → s.awaits i = true →
    ∃ t, step s = .next t ∧ t.inputs = rest ∧ t.phase.answersLeft < s.phase.answersLeft ∧
      (t.phase.answersLeft = 0 → t.status.busy = false ∧ t.status.done = true)

/-- R231: with nothing queued the block has no step of its own: it stays as it is, waiting or idle. (Staying as
a step to the same state is the model's choice, log entry 11.) -/
def Obligations.NothingHappensUnasked : Prop :=
  ∀ (s : State) (k : Nat), s.inputs = [] → Host.Core.run core k s = .next s

/-! ## Host access -/

/-- R38, R190, R191, R197: a step is refused exactly where the spec gives the act no step; no input, however
malformed, does anything else. ("No step" as a refusal: log entry 10; the second half of INSPECT as an act: log entry
16; an over-wide failure description counts by its DESC_W bits and is admitted: log entry 2.) -/
def Obligations.StepsExactlyWhereAdmitted : Prop :=
  ∀ (s : State) (i : Input) (rest : List Input), s.Inv → s.inputs = i :: rest →
    (s.admits i = true ↔ ∃ t, step s = .next t)

/-- R254, R38, R192: while BUSY = 1 every host access but a read of STATUS is refused. -/
def Obligations.BusyBlockAdmitsOnlyStatusRead : Prop :=
  ∀ (s : State) (i : Input) (rest : List Input), s.status.busy = true → s.inputs = i :: rest → i.isHostAccess = true →
    (i = .read 0x01#8 → step s = .next { s with inputs := rest, obs := .read 0x01#8 (.num s.status.word.toNat) :: s.obs }) ∧
    (i ≠ .read 0x01#8 → ∃ r, step s = .refused r)

/-- R22: the layout of STATUS. -/
def Obligations.StatusBitsAsLaidOut : Prop :=
  ∀ t : Status, t.word.getLsbD 0 = t.busy ∧ t.word.getLsbD 1 = t.done ∧ t.word.getLsbD 2 = t.err ∧ t.word.getLsbD 3 = t.hdrValid ∧
    t.word.getLsbD 4 = t.pktValid ∧ t.word.getLsbD 5 = t.resValid ∧ t.word.getLsbD 6 = false ∧ t.word.getLsbD 7 = false

/-- R218: the code table. -/
def Obligations.ErrorCodesAsTabled : Prop :=
  ∀ d : Nat,
    [Err.invalidMagic, .headerTooShort, .noPayloadLength, .payloadShort d, .invalidKey, .noData, .notPadded, .structureInvalid,
      .compressedFlag, .decompressFailed d, .shorterThanTrailer, .illegalCommand, .parseLength, .noPacket, .capacity].map
      (fun e => (e.kind.toNat, e.reason.toNat, e.info)) =
    [(1, 0, 0), (2, 1, 0), (2, 2, 0), (2, 3, d), (3, 0, 0), (4, 1, 0), (4, 2, 0), (4, 3, 0), (5, 1, 0), (6, 1, d), (6, 2, 0), (15, 1, 0),
      (15, 2, 0), (15, 3, 0), (15, 4, 0)]

/-- R37: the register numbers, in the order of R37; each names its register and no other does, and an access to any
other number is not admitted. -/
def Obligations.RegisterNumbersNameRegisters : Prop :=
  [Reg.cmd, .status, .errKind, .errReason, .errInfo].map Reg.number = [0x00#8, 0x01#8, 0x02#8, 0x03#8, 0x04#8] ∧
  [Reg.klen, .key, .opiv, .ilen, .ibuf].map Reg.number = [0x08#8, 0x09#8, 0x0A#8, 0x0B#8, 0x0C#8] ∧
  [Reg.hfMagic, .hfPver, .hfDevid, .hfFlags, .hfIv, .hfPlver, .hfPlen].map Reg.number =
    [0x10#8, 0x11#8, 0x12#8, 0x13#8, 0x14#8, 0x15#8, 0x16#8] ∧
  [Reg.pktPver, .pktPlver, .pktDevid, .pktFlags, .pktIv, .pktPlen, .pbuf].map Reg.number =
    [0x18#8, 0x19#8, 0x1A#8, 0x1B#8, 0x1C#8, 0x1D#8, 0x1E#8] ∧
  [Reg.rlen, .rbuf].map Reg.number = [0x20#8, 0x21#8] ∧
  (∀ r : Reg, Reg.ofNumber r.number = some r) ∧
  ∀ (n : BitVec 8), (∀ r : Reg, r.number ≠ n) → ∀ s : State,
    hostRead n s = .refused .unassigned ∧ (s.status.busy = false → ∀ v, hostWrite n v s = .refused .unassigned)

/-- R191, R38: a host read returns the register's current value, the groups' only when valid, KEY and CMD
never, and changes nothing of the block. -/
def Obligations.HostReadsAsAdmitted : Prop :=
  ∀ (s : State) (r : Reg) (rest : List Input), s.status.busy = false → s.inputs = .read r.number :: rest →
    (∀ v, (r, v) ∈
        [(Reg.status, Value.num s.status.word.toNat), (.errKind, .num s.errKind.toNat), (.errReason, .num s.errReason.toNat),
          (.errInfo, .num s.errInfo), (.klen, .num s.klen.toNat), (.opiv, .bytes s.opiv), (.ilen, .num s.ilen.toNat), (.ibuf, .bytes s.ibuf),
          (.hfMagic, .bytes s.hfMagic), (.hfPver, .num s.hf.pver.toNat), (.hfDevid, .bytes s.hf.devid), (.hfFlags, .num s.hf.flags.toNat),
          (.hfIv, .bytes s.hf.iv), (.hfPlver, .num s.hf.plver.toNat), (.hfPlen, .num s.hf.plen.toNat),
          (.pktPver, .num s.pkt.pver.toNat), (.pktPlver, .num s.pkt.plver.toNat), (.pktDevid, .bytes s.pkt.devid),
          (.pktFlags, .num s.pkt.flags.toNat), (.pktIv, .bytes s.pkt.iv), (.pktPlen, .num s.pkt.plen.toNat), (.pbuf, .bytes s.pbuf),
          (.rlen, .num s.rlen.toNat), (.rbuf, .bytes s.rbuf)] →
      s.mayRead r = true → step s = .next { s with inputs := rest, obs := .read r.number v :: s.obs }) ∧
    (s.mayRead r = false → ∃ e, step s = .refused e)

/-- R190: the host writes of KEY, OPIV and IBUF: the register and its length register, and nothing else. -/
def Obligations.HostWritesOperands : Prop :=
  ∀ (s : State) (v : Bytes) (rest : List Input), s.status.busy = false → s.par.wf = true →
    (s.inputs = .write 0x09#8 v :: rest → v.length ≤ s.par.keyMax → ∃ t, step s = .next t ∧ t.key = v ∧ t.klen.toNat = v.length ∧
      t = { s with inputs := rest, key := v, klen := t.klen }) ∧
    (s.inputs = .write 0x0A#8 v :: rest → v.length = 16 → step s = .next { s with inputs := rest, opiv := v }) ∧
    (s.inputs = .write 0x0C#8 v :: rest → v.length ≤ s.par.maxOperand → ∃ t, step s = .next t ∧ t.ibuf = v ∧ t.ilen.toNat = v.length ∧
      t = { s with inputs := rest, ibuf := v, ilen := t.ilen })

/-- R190, R191: a piecewise write of IBUF and the piecewise reads, byte by byte; a byte of IBUF, PBUF or RBUF is the one
at its index in the buffer. -/
def Obligations.PiecewiseAccessByByte : Prop :=
  ∀ (s : State) (rest : List Input), s.Inv → s.status.busy = false →
    (∀ a, s.peek .ibuf a = s.ibuf[a]?) ∧
    (s.status.pktValid = true → ∀ a, s.peek .pbuf a = s.pbuf[a]?) ∧
    (s.status.resValid = true → ∀ a, s.peek .rbuf a = s.rbuf[a]?) ∧
    (∀ (a : Nat) (v : Bytes), s.inputs = .memWrite .ibuf a v :: rest → a + v.length ≤ s.ilen.toNat →
      ∃ t, step s = .next t ∧ t.ilen = s.ilen ∧
        (∀ j, j < v.length → t.peek .ibuf (a + j) = v[j]?) ∧
        (∀ j, j < a ∨ a + v.length ≤ j → t.peek .ibuf j = s.peek .ibuf j) ∧
        t = { s with inputs := rest, ibuf := t.ibuf }) ∧
    (∀ (sp : Space) (a n : Nat), s.inputs = .memRead sp a n :: rest → s.admits (.memRead sp a n) = true →
      ∃ b : Bytes, b.length = n ∧ (∀ j, j < n → b[j]? = s.peek sp (a + j)) ∧
        step s = .next { s with inputs := rest, obs := .memRead sp a n b :: s.obs })

/-- R197, R251: a collaborator's answer that matches no outstanding request has no step. -/
def Obligations.UnsolicitedAnswersHaveNoStep : Prop :=
  ∀ (s : State) (rest : List Input), s.Inv →
    (s.inputs = .ciphAnswer :: rest → s.phase ≠ .ciphWait → step s = .refused .unsolicited) ∧
    (s.inputs = .dcmpAnswer :: rest → s.phase ≠ .dcmpWait → step s = .refused .unsolicited) ∧
    (s.inputs = .srcOk :: rest → s.phase ≠ .hdrRead → s.phase ≠ .payRead → step s = .refused .unsolicited) ∧
    (∀ d k, s.inputs = .srcFail d k :: rest → s.phase ≠ .hdrRead → s.phase ≠ .payRead → step s = .refused .unsolicited)

/-- R44, R31, R42: no command changes a readable byte of a buffer it does not own: IBUF never; PBUF only
DECODE, by making it unreadable; RBUF only DECRYPT, UNPAD and RESOLVE. -/
def Obligations.CommandsKeepOtherBuffers : Prop :=
  ∀ (s t : State) (i : Instr), exec i s = .next t →
    (∀ a, t.peek .ibuf a = s.peek .ibuf a) ∧
    (i ≠ .decode → ∀ a, t.peek .pbuf a = s.peek .pbuf a) ∧
    (i ∈ [Instr.parse, .decode, .illegalOp0, .illegalOp6, .illegalOp7] ∨ (∃ h, i = .informHeader h) →
      ∀ a, t.peek .rbuf a = s.peek .rbuf a)

/-- R130, R197: a header word that no `SrcRead(40)` awaits has no step (a refusal, log entry 10). -/
def Obligations.HeaderWordOnlyWhenAwaited : Prop :=
  ∀ (s : State) (h : Header), s.phase ≠ .hdrRead → exec (.informHeader h) s = .refused .unsolicited

/-- R103: INSPECT: the RESOLVE that follows a DECODE is issued only if the DECODE succeeded (as an act of the
outside, log entry 16). -/
def Obligations.InspectResolvesOnlyAfterSuccess : Prop :=
  ∀ (s : State) (rest : List Input), s.inputs = .inspectResolve :: rest → s.status.busy = false → s.status.done = true →
    (s.status.err = true → step s = .next { s with inputs := rest }) ∧
    (s.status.err = false → step s = exec .resolve { s with inputs := rest })

/-! ## Runs -/

/-- R199: a run has ended when its last act is done and the block is idle. A state with BUSY = 1 is never an end, however
long nothing more happens (R231). -/
def Obligations.RunEndsOnlyWhenIdle : Prop :=
  ∀ s : State, s.Inv →
    (s.runEnded = true ↔ s.inputs = [] ∧ s.phase = .idle) ∧
    (s.runEnded = true → ∃ r, s.runResult = some r ∧ r.bytesAsked = s.bytesAsked) ∧
    (s.inputs = [] → s.status.busy = true → ∀ k t, Host.Core.run core k s = .next t → t.runEnded = false ∧ t.runResult = none)

/-- R199, R64: the number of bytes the source is asked for grows by 40 when a DECODE is accepted, by the declared length
when its header is, and by nothing else. -/
def Obligations.SourceAskedOnlyByDecode : Prop :=
  ∀ s t : State, s.Inv → step s = .next t →
    t.bytesAsked = s.bytesAsked +
      (if s.phase = .idle ∧ t.phase = .hdrRead then 40
       else if s.phase = .hdrRead ∧ t.phase = .payRead then (headerFields t.hbuf).plen.toNat else 0)
end

