-- ==== Sys2Proof/Laws/Decode.lean ====
section
/-! SUPPORT. The field functions of the encodings undo each other (R90, R92, R101). -/

namespace Sys2Proof

/-! ## Integers (R60) -/

theorem beNat_snoc (b : Bytes) (x : Byte) : beNat (b ++ [x]) = beNat b * 2 ^ 8 + x.toNat := by
  simp [beNat]

@[simp] theorem bytesOf_length (n v : Nat) : (bytesOf n v).length = n := by
  induction n generalizing v with
  | zero => rfl
  | succ n ih => simp [bytesOf, ih]

theorem beNat_bytesOf (n v : Nat) : beNat (bytesOf n v) = v % 2 ^ (8 * n) := by
  induction n generalizing v with
  | zero => simp [bytesOf, beNat, Nat.mod_one]
  | succ n ih =>
    rw [bytesOf, beNat_snoc, ih, BitVec.toNat_ofNat, Nat.mul_add, Nat.mul_one, Nat.add_comm (8 * n), Nat.pow_add, Nat.mod_mul]
    ring

theorem beNat_lt (b : Bytes) : beNat b < 2 ^ (8 * b.length) := by
  induction b using List.reverseRecOn with
  | nil => simp [beNat]
  | append_singleton b x ih =>
    rw [beNat_snoc, List.length_append, List.length_singleton, Nat.mul_add, Nat.mul_one, Nat.pow_add]
    have := x.isLt
    omega

theorem bytesOf_beNat (b : Bytes) : bytesOf b.length (beNat b) = b := by
  induction b using List.reverseRecOn with
  | nil => rfl
  | append_singleton b x ih =>
    have hx := x.isLt
    rw [beNat_snoc, List.length_append, List.length_singleton, bytesOf]
    congr 1
    · have : (beNat b * 2 ^ 8 + x.toNat) / 2 ^ 8 = beNat b := by omega
      rw [this, ih]
    · congr 1
      apply BitVec.eq_of_toNat_eq
      rw [BitVec.toNat_ofNat]
      omega

theorem be32_bytesOf (v : BitVec 32) : be32 (bytesOf 4 v.toNat) = v := by
  apply BitVec.eq_of_toNat_eq
  rw [be32, beNat_bytesOf, BitVec.toNat_ofNat]
  have := v.isLt
  omega

theorem be16_bytesOf (v : BitVec 16) : be16 (bytesOf 2 v.toNat) = v := by
  apply BitVec.eq_of_toNat_eq
  rw [be16, beNat_bytesOf, BitVec.toNat_ofNat]
  have := v.isLt
  omega

theorem bytesOf_be32 {b : Bytes} (h : b.length = 4) : bytesOf 4 (be32 b).toNat = b := by
  have hl := beNat_lt b
  rw [h] at hl
  rw [be32, BitVec.toNat_ofNat, Nat.mod_eq_of_lt hl]
  simpa only [h] using bytesOf_beNat b

theorem bytesOf_be16 {b : Bytes} (h : b.length = 2) : bytesOf 2 (be16 b).toNat = b := by
  have hl := beNat_lt b
  rw [h] at hl
  rw [be16, BitVec.toNat_ofNat, Nat.mod_eq_of_lt hl]
  simpa only [h] using bytesOf_beNat b

theorem be32_toNat (a b c d : Byte) : (be32 [a,b,c,d]).toNat = a.toNat * 2^24 + b.toNat * 2^16 + c.toNat*2^8 + d.toNat := by
  have := a.isLt; have := b.isLt; have := c.isLt; have := d.isLt
  simp only [be32, beNat, List.foldl, BitVec.toNat_ofNat]
  omega

theorem be16_toNat (a b : Byte) : (be16 [a,b]).toNat = a.toNat * 2^8 + b.toNat := by
  have := a.isLt; have := b.isLt
  simp only [be16, beNat, List.foldl, BitVec.toNat_ofNat]
  omega

/-! ## The widths (R6, R28) -/

/-- R6: the widths of the seven fields fill the header. -/
theorem widths_fill_header : Config.plenAt + Config.plenLen = Config.headerLen := rfl

/-- R28, R29: the integer registers are as wide as the fields they hold, and the magic as its field. -/
theorem registers_fit_fields :
    8 * Config.pverLen = 32 ∧ 8 * Config.flagsLen = 16 ∧ 8 * Config.plverLen = 32 ∧ 8 * Config.plenLen = 32 ∧
      Config.magic.length = Config.magicLen := by decide

/-- R92: the fields at the offsets that the widths add up to. -/
theorem headerFields_at (h : Bytes) :
    headerFields h =
      { pver := be32 (slice h 4 8), devid := slice h 8 14, flags := be16 (slice h 14 16), iv := slice h 16 32,
        plver := be32 (slice h 32 36), plen := be32 (slice h 36 40) } := rfl

theorem magicMatches_at (h : Bytes) : magicMatches h = (slice h 0 4 == Config.magic) := rfl

/-- R90: a header's bytes, field after field. -/
theorem encodeHeader_at (h : Header) :
    encodeHeader h = Config.magic ++ bytesOf 4 h.pver.toNat ++ h.devid ++ bytesOf 2 h.flags.toNat ++ h.iv ++
      bytesOf 4 h.plver.toNat ++ bytesOf 4 h.plen.toNat := rfl

theorem Header.wf_iff (h : Header) : h.wf = true ↔ h.devid.length = 6 ∧ h.iv.length = 16 := by
  simp [Header.wf, Config.devidLen, Config.ivLen]

/-! ## The header (R90) -/

theorem encodeHeader_length (h : Header) (hw : h.wf = true) : (encodeHeader h).length = 40 := by
  simp [encodeHeader_at, (Header.wf_iff h).mp hw, Config.magic]

theorem slice_append (p b : Bytes) (r : Bytes) (i j : Nat) (hi : p.length = i) (hj : i + b.length = j) :
    slice (p ++ b ++ r) i j = b := by
  subst hi; subst hj; simp [slice]

theorem headerFields_encodeHeader (h : Header) (hw : h.wf = true) : headerFields (encodeHeader h) = h := by
  obtain ⟨h1, h2⟩ := (Header.wf_iff h).mp hw
  obtain ⟨pver, devid, flags, iv, plver, plen⟩ := h
  dsimp only at h1 h2
  rw [headerFields_at, encodeHeader_at]
  generalize ha : bytesOf 4 pver.toNat = a
  generalize hb : bytesOf 2 flags.toNat = b
  generalize hc : bytesOf 4 plver.toNat = c
  generalize hd : bytesOf 4 plen.toNat = d
  have la : a.length = 4 := by rw [← ha, bytesOf_length]
  have lb : b.length = 2 := by rw [← hb, bytesOf_length]
  have lc : c.length = 4 := by rw [← hc, bytesOf_length]
  have ld : d.length = 4 := by rw [← hd, bytesOf_length]
  have lm : Config.magic.length = 4 := rfl
  have s1 := slice_append Config.magic a (devid ++ b ++ iv ++ c ++ d) 4 8 lm (by omega)
  have s2 := slice_append (Config.magic ++ a) devid (b ++ iv ++ c ++ d) 8 14 (by simp [lm, la]) (by omega)
  have s3 := slice_append (Config.magic ++ a ++ devid) b (iv ++ c ++ d) 14 16 (by simp [lm, la, h1]) (by omega)
  have s4 := slice_append (Config.magic ++ a ++ devid ++ b) iv (c ++ d) 16 32 (by simp [lm, la, lb, h1]) (by omega)
  have s5 := slice_append (Config.magic ++ a ++ devid ++ b ++ iv) c d 32 36 (by simp [lm, la, lb, h1, h2]) (by omega)
  have s6 := slice_append (Config.magic ++ a ++ devid ++ b ++ iv ++ c) d [] 36 40 (by simp [lm, la, lb, lc, h1, h2]) (by omega)
  simp only [List.append_assoc, List.append_nil] at s1 s2 s3 s4 s5 s6
  simp only [List.append_assoc, s1, s2, s3, s4, s5, s6]
  rw [← ha, ← hb, ← hc, ← hd, be32_bytesOf, be16_bytesOf, be32_bytesOf, be32_bytesOf]

theorem magicMatches_encodeHeader (h : Header) : magicMatches (encodeHeader h) = true := by
  simp [magicMatches_at, encodeHeader, slice, Config.magic]

theorem encodeHeader_headerFields (h : Bytes) (hl : h.length = 40) (hm : magicMatches h = true) :
    encodeHeader (headerFields h) = h := by
  have e : ∀ i j, slice h i j = (h.drop i).take (j - i) := fun _ _ => rfl
  rw [magicMatches_at, beq_iff_eq] at hm
  rw [encodeHeader_at, headerFields_at, ← hm]
  dsimp only
  rw [bytesOf_be32 (by simp [e, hl]), bytesOf_be32 (by simp [e, hl]), bytesOf_be32 (by simp [e, hl]), bytesOf_be16 (by simp [e, hl])]
  have j : ∀ i k n, i ≤ k → k ≤ n → slice h i k ++ slice h k n = slice h i n := by
    intro i k n h1 h2
    simp only [e]
    have : n - i = (k - i) + (n - k) := by omega
    rw [this, List.take_add, List.drop_drop]
    congr 3; omega
  rw [j 0 4 8, j 0 8 14, j 0 14 16, j 0 16 32, j 0 32 36, j 0 36 40] <;> first | omega | skip
  simp [e, ← hl]

theorem headerFields_wf (h : Bytes) (hl : h.length = 40) : (headerFields h).wf = true := by
  simp [Header.wf_iff, headerFields_at, slice, hl]

/-- R120: a header with the magic parses to the fields it was written from. -/
theorem parseHeader_encodeHeader (h : Header) (hw : h.wf = true) : parseHeader (encodeHeader h) = some h := by
  rw [parseHeader, magicMatches_encodeHeader, headerFields_encodeHeader h hw, if_pos rfl]

/-- R105: the magic is tested on the first four bytes alone. -/
theorem magicMatches_take (b : Bytes) : magicMatches b = (b.take 4 == [0x55#8, 0x42#8, 0x4E#8, 0x54#8]) := rfl

/-! ## The flags (R93, R94, R101) -/

/-- A mask of one bit tests that bit. -/
theorem and_twoPow_ne_zero (f : BitVec 16) (i : Nat) (hi : i < 16) : (f &&& BitVec.twoPow 16 i != 0#16) = f.getLsbD i := by
  rw [BitVec.and_twoPow]
  split <;> rename_i hb
  · rw [hb, bne_iff_ne]
    intro h0
    have := congrArg (fun v => v.getLsbD i) h0
    simp [hi] at this
  · simp [hb]

/-- R93: the flags are bits 0, 1 and 2. -/
theorem flag_bits (f : BitVec 16) :
    isEncrypted f = f.getLsbD 0 ∧ isCompressed f = f.getLsbD 1 ∧ isSnappy f = f.getLsbD 2 :=
  ⟨and_twoPow_ne_zero f 0 (by decide), and_twoPow_ne_zero f 1 (by decide), and_twoPow_ne_zero f 2 (by decide)⟩

theorem flagsDefined_bit (i : Nat) : Config.flagsDefined.getLsbD i = decide (i < 3) := by
  by_cases h : i < 16
  · revert h i; decide
  · rw [BitVec.getLsbD_of_ge _ _ (by omega)]; simp; omega

theorem flagsRest_bit (f : BitVec 16) (i : Nat) : (flagsRest f).getLsbD i = (f.getLsbD i && decide (3 ≤ i)) := by
  by_cases h : i < 16
  · rw [flagsRest, BitVec.getLsbD_and, BitVec.getLsbD_not, flagsDefined_bit, decide_eq_true h, Bool.true_and, ← decide_not]
    simp only [Nat.not_lt]
  · rw [BitVec.getLsbD_of_ge _ _ (by omega), BitVec.getLsbD_of_ge f _ (by omega), Bool.false_and]

theorem flagsRest_wf (f : BitVec 16) : flagsRestWf (flagsRest f) = true := by
  rw [flagsRestWf, flagsRest, BitVec.and_assoc, BitVec.and_comm (~~~_), beq_iff_eq]
  simp

theorem flagsRestWf_bit {rest : BitVec 16} (h : flagsRestWf rest = true) (i : Nat) (hi : i < 3) : rest.getLsbD i = false := by
  have := congrArg (fun v => v.getLsbD i) (beq_iff_eq.mp h)
  simpa [BitVec.getLsbD_and, flagsDefined_bit, hi, -BitVec.getLsbD_eq_getElem] using this

theorem encodeFlags_bit (rest : BitVec 16) (e c z : Bool) (i : Nat) :
    (encodeFlags rest e c z).getLsbD i =
      (rest.getLsbD i || (e && decide (i = 0)) || (c && decide (i = 1)) || (z && decide (i = 2))) := by
  have m : ∀ (b : Bool) (k : Nat), k < 16 → (maskIf b (BitVec.twoPow 16 k)).getLsbD i = (b && decide (i = k)) := by
    intro b k hk
    cases b
    · simp [maskIf]
    · simp only [maskIf, if_true, BitVec.getLsbD_twoPow, hk, decide_true, Bool.true_and]
      exact decide_eq_decide.mpr eq_comm
  have m0 := m e 0 (by decide)
  have m1 := m c 1 (by decide)
  have m2 := m z 2 (by decide)
  rw [encodeFlags, BitVec.getLsbD_or, BitVec.getLsbD_or, BitVec.getLsbD_or]
  exact congrArg₂ _ (congrArg₂ _ (congrArg _ m0) m1) m2

theorem tests_encodeFlags {rest : BitVec 16} (h : flagsRestWf rest = true) (e c z : Bool) :
    isEncrypted (encodeFlags rest e c z) = e ∧ isCompressed (encodeFlags rest e c z) = c ∧ isSnappy (encodeFlags rest e c z) = z := by
  obtain ⟨h0, h1, h2⟩ := flag_bits (encodeFlags rest e c z)
  rw [h0, h1, h2]
  simp only [encodeFlags_bit, flagsRestWf_bit h 0 (by decide), flagsRestWf_bit h 1 (by decide), flagsRestWf_bit h 2 (by decide)]
  simp

theorem flagsRest_encodeFlags {rest : BitVec 16} (h : flagsRestWf rest = true) (e c z : Bool) :
    flagsRest (encodeFlags rest e c z) = rest := by
  apply BitVec.eq_of_getLsbD_eq
  intro i _
  rw [flagsRest_bit, encodeFlags_bit]
  by_cases hi : i < 3
  · rw [flagsRestWf_bit h i hi]; simp; omega
  · have : 3 ≤ i ∧ i ≠ 0 ∧ i ≠ 1 ∧ i ≠ 2 := by omega
    simp [this]

/-- R101: a flags word is its ignored bits and its three flags. -/
theorem encodeFlags_join (f : BitVec 16) : encodeFlags (flagsRest f) (isEncrypted f) (isCompressed f) (isSnappy f) = f := by
  obtain ⟨h0, h1, h2⟩ := flag_bits f
  apply BitVec.eq_of_getLsbD_eq
  intro i _
  rw [encodeFlags_bit, flagsRest_bit, h0, h1, h2]
  match i with
  | 0 => simp
  | 1 => simp
  | 2 => simp
  | i + 3 => simp

theorem decodeFlags_encodeFlags0 {rest : BitVec 16} (h : flagsRestWf rest = true) :
    decodeFlags (encodeFlags rest false false false) = .resolveF0 rest := by
  simp only [decodeFlags, tests_encodeFlags h, flagsRest_encodeFlags h]

theorem decodeFlags_encodeFlags1 {rest : BitVec 16} (h : flagsRestWf rest = true) :
    decodeFlags (encodeFlags rest true false false) = .resolveF1 rest := by
  simp only [decodeFlags, tests_encodeFlags h, flagsRest_encodeFlags h]

theorem decodeFlags_encodeFlags2 {rest : BitVec 16} (h : flagsRestWf rest = true) :
    decodeFlags (encodeFlags rest false true false) = .resolveF2 rest := by
  simp only [decodeFlags, tests_encodeFlags h, flagsRest_encodeFlags h]

theorem decodeFlags_encodeFlags3 {rest : BitVec 16} (h : flagsRestWf rest = true) :
    decodeFlags (encodeFlags rest true true false) = .resolveF3 rest := by
  simp only [decodeFlags, tests_encodeFlags h, flagsRest_encodeFlags h]

theorem decodeFlags_encodeFlags4 {rest : BitVec 16} (h : flagsRestWf rest = true) :
    decodeFlags (encodeFlags rest false false true) = .resolveF4 rest := by
  simp only [decodeFlags, tests_encodeFlags h, flagsRest_encodeFlags h]

theorem decodeFlags_encodeFlags5 {rest : BitVec 16} (h : flagsRestWf rest = true) :
    decodeFlags (encodeFlags rest true false true) = .resolveF5 rest := by
  simp only [decodeFlags, tests_encodeFlags h, flagsRest_encodeFlags h]

theorem decodeFlags_encodeFlags6 {rest : BitVec 16} (h : flagsRestWf rest = true) :
    decodeFlags (encodeFlags rest false true true) = .resolveF6 rest := by
  simp only [decodeFlags, tests_encodeFlags h, flagsRest_encodeFlags h]

theorem decodeFlags_encodeFlags7 {rest : BitVec 16} (h : flagsRestWf rest = true) :
    decodeFlags (encodeFlags rest true true true) = .resolveF7 rest := by
  simp only [decodeFlags, tests_encodeFlags h, flagsRest_encodeFlags h]

/-! ## The command words that write an output group -/

theorem decodeFlags_is_resolve (f : BitVec 16) : decodeFlags f ≠ .parse ∧ decodeFlags f ≠ .decode := by
  unfold decodeFlags
  split <;> exact ⟨by simp, by simp⟩

theorem word_of_parse {w : CodeWord} (h : decode w = .ok .parse) : w = .cmd 1#8 := by
  cases w with
  | cmd c =>
    have key : ∀ c : BitVec 8, decodeCommand c = .ok .parse → c = 1#8 := by
      intro c hc
      unfold decodeCommand at hc
      revert hc; revert c; decide
    exact congrArg _ (key c h)
  | flags f =>
    simp only [decode, Except.ok.injEq] at h
    exact absurd h (decodeFlags_is_resolve f).1
  | header b =>
    simp only [decode, decodeHeader] at h
    split at h
    · cases h
    · split at h <;> cases h

theorem word_of_decode {w : CodeWord} (h : decode w = .ok .decode) : w = .cmd 2#8 := by
  cases w with
  | cmd c =>
    have key : ∀ c : BitVec 8, decodeCommand c = .ok .decode → c = 2#8 := by
      intro c hc
      unfold decodeCommand at hc
      revert hc; revert c; decide
    exact congrArg _ (key c h)
  | flags f =>
    simp only [decode, Except.ok.injEq] at h
    exact absurd h (decodeFlags_is_resolve f).2
  | header b =>
    simp only [decode, decodeHeader] at h
    split at h
    · cases h
    · split at h <;> cases h

end Sys2Proof
end

