-- ==== Sys2Proof/Laws/State.lean ====
section
/-! SUPPORT. One lemma per field per update of State, each true by rfl, so that no later proof unfolds a
record update. -/

namespace Sys2Proof.Machine

section
variable (s : State)

@[simp] theorem State.accept_status : (s.accept).status = { s.status with busy := true, done := false, err := false } := rfl
@[simp] theorem State.accept_errKind : (s.accept).errKind = 0#4 := rfl
@[simp] theorem State.accept_errReason : (s.accept).errReason = 0#4 := rfl
@[simp] theorem State.accept_errInfo : (s.accept).errInfo = 0 := rfl
@[simp] theorem State.accept_phase : (s.accept).phase = s.phase := rfl
@[simp] theorem State.accept_oper : (s.accept).oper = s.oper := rfl
@[simp] theorem State.accept_key : (s.accept).key = s.key := rfl
@[simp] theorem State.accept_klen : (s.accept).klen = s.klen := rfl
@[simp] theorem State.accept_opiv : (s.accept).opiv = s.opiv := rfl
@[simp] theorem State.accept_ibuf : (s.accept).ibuf = s.ibuf := rfl
@[simp] theorem State.accept_ilen : (s.accept).ilen = s.ilen := rfl
@[simp] theorem State.accept_hfMagic : (s.accept).hfMagic = s.hfMagic := rfl
@[simp] theorem State.accept_hf : (s.accept).hf = s.hf := rfl
@[simp] theorem State.accept_pkt : (s.accept).pkt = s.pkt := rfl
@[simp] theorem State.accept_pbuf : (s.accept).pbuf = s.pbuf := rfl
@[simp] theorem State.accept_rbuf : (s.accept).rbuf = s.rbuf := rfl
@[simp] theorem State.accept_rlen : (s.accept).rlen = s.rlen := rfl
@[simp] theorem State.accept_wbuf : (s.accept).wbuf = s.wbuf := rfl
@[simp] theorem State.accept_hbuf : (s.accept).hbuf = s.hbuf := rfl
@[simp] theorem State.accept_out : (s.accept).out = s.out := rfl
@[simp] theorem State.accept_par : (s.accept).par = s.par := rfl
@[simp] theorem State.accept_stream : (s.accept).stream = s.stream := rfl
@[simp] theorem State.accept_inputs : (s.accept).inputs = s.inputs := rfl
@[simp] theorem State.accept_obs : (s.accept).obs = s.obs := rfl

@[simp] theorem State.setOper_status (o : Option Oper) : (s.setOper o).status = s.status := rfl
@[simp] theorem State.setOper_errKind (o : Option Oper) : (s.setOper o).errKind = s.errKind := rfl
@[simp] theorem State.setOper_errReason (o : Option Oper) : (s.setOper o).errReason = s.errReason := rfl
@[simp] theorem State.setOper_errInfo (o : Option Oper) : (s.setOper o).errInfo = s.errInfo := rfl
@[simp] theorem State.setOper_phase (o : Option Oper) : (s.setOper o).phase = s.phase := rfl
@[simp] theorem State.setOper_oper (o : Option Oper) : (s.setOper o).oper = o := rfl
@[simp] theorem State.setOper_key (o : Option Oper) : (s.setOper o).key = s.key := rfl
@[simp] theorem State.setOper_klen (o : Option Oper) : (s.setOper o).klen = s.klen := rfl
@[simp] theorem State.setOper_opiv (o : Option Oper) : (s.setOper o).opiv = s.opiv := rfl
@[simp] theorem State.setOper_ibuf (o : Option Oper) : (s.setOper o).ibuf = s.ibuf := rfl
@[simp] theorem State.setOper_ilen (o : Option Oper) : (s.setOper o).ilen = s.ilen := rfl
@[simp] theorem State.setOper_hfMagic (o : Option Oper) : (s.setOper o).hfMagic = s.hfMagic := rfl
@[simp] theorem State.setOper_hf (o : Option Oper) : (s.setOper o).hf = s.hf := rfl
@[simp] theorem State.setOper_pkt (o : Option Oper) : (s.setOper o).pkt = s.pkt := rfl
@[simp] theorem State.setOper_pbuf (o : Option Oper) : (s.setOper o).pbuf = s.pbuf := rfl
@[simp] theorem State.setOper_rbuf (o : Option Oper) : (s.setOper o).rbuf = s.rbuf := rfl
@[simp] theorem State.setOper_rlen (o : Option Oper) : (s.setOper o).rlen = s.rlen := rfl
@[simp] theorem State.setOper_wbuf (o : Option Oper) : (s.setOper o).wbuf = s.wbuf := rfl
@[simp] theorem State.setOper_hbuf (o : Option Oper) : (s.setOper o).hbuf = s.hbuf := rfl
@[simp] theorem State.setOper_out (o : Option Oper) : (s.setOper o).out = s.out := rfl
@[simp] theorem State.setOper_par (o : Option Oper) : (s.setOper o).par = s.par := rfl
@[simp] theorem State.setOper_stream (o : Option Oper) : (s.setOper o).stream = s.stream := rfl
@[simp] theorem State.setOper_inputs (o : Option Oper) : (s.setOper o).inputs = s.inputs := rfl
@[simp] theorem State.setOper_obs (o : Option Oper) : (s.setOper o).obs = s.obs := rfl

@[simp] theorem State.complete_status : (s.complete).status = { s.status with busy := false, done := true } := rfl
@[simp] theorem State.complete_errKind : (s.complete).errKind = s.errKind := rfl
@[simp] theorem State.complete_errReason : (s.complete).errReason = s.errReason := rfl
@[simp] theorem State.complete_errInfo : (s.complete).errInfo = s.errInfo := rfl
@[simp] theorem State.complete_phase : (s.complete).phase = .idle := rfl
@[simp] theorem State.complete_oper : (s.complete).oper = none := rfl
@[simp] theorem State.complete_key : (s.complete).key = s.key := rfl
@[simp] theorem State.complete_klen : (s.complete).klen = s.klen := rfl
@[simp] theorem State.complete_opiv : (s.complete).opiv = s.opiv := rfl
@[simp] theorem State.complete_ibuf : (s.complete).ibuf = s.ibuf := rfl
@[simp] theorem State.complete_ilen : (s.complete).ilen = s.ilen := rfl
@[simp] theorem State.complete_hfMagic : (s.complete).hfMagic = s.hfMagic := rfl
@[simp] theorem State.complete_hf : (s.complete).hf = s.hf := rfl
@[simp] theorem State.complete_pkt : (s.complete).pkt = s.pkt := rfl
@[simp] theorem State.complete_pbuf : (s.complete).pbuf = s.pbuf := rfl
@[simp] theorem State.complete_rbuf : (s.complete).rbuf = s.rbuf := rfl
@[simp] theorem State.complete_rlen : (s.complete).rlen = s.rlen := rfl
@[simp] theorem State.complete_wbuf : (s.complete).wbuf = s.wbuf := rfl
@[simp] theorem State.complete_hbuf : (s.complete).hbuf = s.hbuf := rfl
@[simp] theorem State.complete_out : (s.complete).out = none := rfl
@[simp] theorem State.complete_par : (s.complete).par = s.par := rfl
@[simp] theorem State.complete_stream : (s.complete).stream = s.stream := rfl
@[simp] theorem State.complete_inputs : (s.complete).inputs = s.inputs := rfl
@[simp] theorem State.complete_obs : (s.complete).obs = s.obs := rfl

@[simp] theorem State.raise_status (e : Err) :
    (s.raise e).status = { s.status with busy := false, done := true, err := true } := rfl
@[simp] theorem State.raise_errKind (e : Err) : (s.raise e).errKind = e.kind := rfl
@[simp] theorem State.raise_errReason (e : Err) : (s.raise e).errReason = e.reason := rfl
@[simp] theorem State.raise_errInfo (e : Err) : (s.raise e).errInfo = e.info := rfl
@[simp] theorem State.raise_phase (e : Err) : (s.raise e).phase = .idle := rfl
@[simp] theorem State.raise_oper (e : Err) : (s.raise e).oper = none := rfl
@[simp] theorem State.raise_key (e : Err) : (s.raise e).key = s.key := rfl
@[simp] theorem State.raise_klen (e : Err) : (s.raise e).klen = s.klen := rfl
@[simp] theorem State.raise_opiv (e : Err) : (s.raise e).opiv = s.opiv := rfl
@[simp] theorem State.raise_ibuf (e : Err) : (s.raise e).ibuf = s.ibuf := rfl
@[simp] theorem State.raise_ilen (e : Err) : (s.raise e).ilen = s.ilen := rfl
@[simp] theorem State.raise_hfMagic (e : Err) : (s.raise e).hfMagic = s.hfMagic := rfl
@[simp] theorem State.raise_hf (e : Err) : (s.raise e).hf = s.hf := rfl
@[simp] theorem State.raise_pkt (e : Err) : (s.raise e).pkt = s.pkt := rfl
@[simp] theorem State.raise_pbuf (e : Err) : (s.raise e).pbuf = s.pbuf := rfl
@[simp] theorem State.raise_rbuf (e : Err) : (s.raise e).rbuf = s.rbuf := rfl
@[simp] theorem State.raise_rlen (e : Err) : (s.raise e).rlen = s.rlen := rfl
@[simp] theorem State.raise_wbuf (e : Err) : (s.raise e).wbuf = s.wbuf := rfl
@[simp] theorem State.raise_hbuf (e : Err) : (s.raise e).hbuf = s.hbuf := rfl
@[simp] theorem State.raise_out (e : Err) : (s.raise e).out = none := rfl
@[simp] theorem State.raise_par (e : Err) : (s.raise e).par = s.par := rfl
@[simp] theorem State.raise_stream (e : Err) : (s.raise e).stream = s.stream := rfl
@[simp] theorem State.raise_inputs (e : Err) : (s.raise e).inputs = s.inputs := rfl
@[simp] theorem State.raise_obs (e : Err) : (s.raise e).obs = s.obs := rfl

@[simp] theorem State.clearHeader_status : (s.clearHeader).status = { s.status with hdrValid := false } := rfl
@[simp] theorem State.clearHeader_errKind : (s.clearHeader).errKind = s.errKind := rfl
@[simp] theorem State.clearHeader_errReason : (s.clearHeader).errReason = s.errReason := rfl
@[simp] theorem State.clearHeader_errInfo : (s.clearHeader).errInfo = s.errInfo := rfl
@[simp] theorem State.clearHeader_phase : (s.clearHeader).phase = s.phase := rfl
@[simp] theorem State.clearHeader_oper : (s.clearHeader).oper = s.oper := rfl
@[simp] theorem State.clearHeader_key : (s.clearHeader).key = s.key := rfl
@[simp] theorem State.clearHeader_klen : (s.clearHeader).klen = s.klen := rfl
@[simp] theorem State.clearHeader_opiv : (s.clearHeader).opiv = s.opiv := rfl
@[simp] theorem State.clearHeader_ibuf : (s.clearHeader).ibuf = s.ibuf := rfl
@[simp] theorem State.clearHeader_ilen : (s.clearHeader).ilen = s.ilen := rfl
@[simp] theorem State.clearHeader_hfMagic : (s.clearHeader).hfMagic = s.hfMagic := rfl
@[simp] theorem State.clearHeader_hf : (s.clearHeader).hf = s.hf := rfl
@[simp] theorem State.clearHeader_pkt : (s.clearHeader).pkt = s.pkt := rfl
@[simp] theorem State.clearHeader_pbuf : (s.clearHeader).pbuf = s.pbuf := rfl
@[simp] theorem State.clearHeader_rbuf : (s.clearHeader).rbuf = s.rbuf := rfl
@[simp] theorem State.clearHeader_rlen : (s.clearHeader).rlen = s.rlen := rfl
@[simp] theorem State.clearHeader_wbuf : (s.clearHeader).wbuf = s.wbuf := rfl
@[simp] theorem State.clearHeader_hbuf : (s.clearHeader).hbuf = s.hbuf := rfl
@[simp] theorem State.clearHeader_out : (s.clearHeader).out = s.out := rfl
@[simp] theorem State.clearHeader_par : (s.clearHeader).par = s.par := rfl
@[simp] theorem State.clearHeader_stream : (s.clearHeader).stream = s.stream := rfl
@[simp] theorem State.clearHeader_inputs : (s.clearHeader).inputs = s.inputs := rfl
@[simp] theorem State.clearHeader_obs : (s.clearHeader).obs = s.obs := rfl

@[simp] theorem State.commitHeader_status (h : Header) : (s.commitHeader h).status = { s.status with hdrValid := true } := rfl
@[simp] theorem State.commitHeader_errKind (h : Header) : (s.commitHeader h).errKind = s.errKind := rfl
@[simp] theorem State.commitHeader_errReason (h : Header) : (s.commitHeader h).errReason = s.errReason := rfl
@[simp] theorem State.commitHeader_errInfo (h : Header) : (s.commitHeader h).errInfo = s.errInfo := rfl
@[simp] theorem State.commitHeader_phase (h : Header) : (s.commitHeader h).phase = s.phase := rfl
@[simp] theorem State.commitHeader_oper (h : Header) : (s.commitHeader h).oper = s.oper := rfl
@[simp] theorem State.commitHeader_key (h : Header) : (s.commitHeader h).key = s.key := rfl
@[simp] theorem State.commitHeader_klen (h : Header) : (s.commitHeader h).klen = s.klen := rfl
@[simp] theorem State.commitHeader_opiv (h : Header) : (s.commitHeader h).opiv = s.opiv := rfl
@[simp] theorem State.commitHeader_ibuf (h : Header) : (s.commitHeader h).ibuf = s.ibuf := rfl
@[simp] theorem State.commitHeader_ilen (h : Header) : (s.commitHeader h).ilen = s.ilen := rfl
@[simp] theorem State.commitHeader_hfMagic (h : Header) : (s.commitHeader h).hfMagic = Config.magic := rfl
@[simp] theorem State.commitHeader_hf (h : Header) : (s.commitHeader h).hf = h := rfl
@[simp] theorem State.commitHeader_pkt (h : Header) : (s.commitHeader h).pkt = s.pkt := rfl
@[simp] theorem State.commitHeader_pbuf (h : Header) : (s.commitHeader h).pbuf = s.pbuf := rfl
@[simp] theorem State.commitHeader_rbuf (h : Header) : (s.commitHeader h).rbuf = s.rbuf := rfl
@[simp] theorem State.commitHeader_rlen (h : Header) : (s.commitHeader h).rlen = s.rlen := rfl
@[simp] theorem State.commitHeader_wbuf (h : Header) : (s.commitHeader h).wbuf = s.wbuf := rfl
@[simp] theorem State.commitHeader_hbuf (h : Header) : (s.commitHeader h).hbuf = s.hbuf := rfl
@[simp] theorem State.commitHeader_out (h : Header) : (s.commitHeader h).out = s.out := rfl
@[simp] theorem State.commitHeader_par (h : Header) : (s.commitHeader h).par = s.par := rfl
@[simp] theorem State.commitHeader_stream (h : Header) : (s.commitHeader h).stream = s.stream := rfl
@[simp] theorem State.commitHeader_inputs (h : Header) : (s.commitHeader h).inputs = s.inputs := rfl
@[simp] theorem State.commitHeader_obs (h : Header) : (s.commitHeader h).obs = s.obs := rfl

@[simp] theorem State.clearPacket_status : (s.clearPacket).status = { s.status with pktValid := false } := rfl
@[simp] theorem State.clearPacket_errKind : (s.clearPacket).errKind = s.errKind := rfl
@[simp] theorem State.clearPacket_errReason : (s.clearPacket).errReason = s.errReason := rfl
@[simp] theorem State.clearPacket_errInfo : (s.clearPacket).errInfo = s.errInfo := rfl
@[simp] theorem State.clearPacket_phase : (s.clearPacket).phase = s.phase := rfl
@[simp] theorem State.clearPacket_oper : (s.clearPacket).oper = s.oper := rfl
@[simp] theorem State.clearPacket_key : (s.clearPacket).key = s.key := rfl
@[simp] theorem State.clearPacket_klen : (s.clearPacket).klen = s.klen := rfl
@[simp] theorem State.clearPacket_opiv : (s.clearPacket).opiv = s.opiv := rfl
@[simp] theorem State.clearPacket_ibuf : (s.clearPacket).ibuf = s.ibuf := rfl
@[simp] theorem State.clearPacket_ilen : (s.clearPacket).ilen = s.ilen := rfl
@[simp] theorem State.clearPacket_hfMagic : (s.clearPacket).hfMagic = s.hfMagic := rfl
@[simp] theorem State.clearPacket_hf : (s.clearPacket).hf = s.hf := rfl
@[simp] theorem State.clearPacket_pkt : (s.clearPacket).pkt = s.pkt := rfl
@[simp] theorem State.clearPacket_pbuf : (s.clearPacket).pbuf = s.pbuf := rfl
@[simp] theorem State.clearPacket_rbuf : (s.clearPacket).rbuf = s.rbuf := rfl
@[simp] theorem State.clearPacket_rlen : (s.clearPacket).rlen = s.rlen := rfl
@[simp] theorem State.clearPacket_wbuf : (s.clearPacket).wbuf = s.wbuf := rfl
@[simp] theorem State.clearPacket_hbuf : (s.clearPacket).hbuf = s.hbuf := rfl
@[simp] theorem State.clearPacket_out : (s.clearPacket).out = s.out := rfl
@[simp] theorem State.clearPacket_par : (s.clearPacket).par = s.par := rfl
@[simp] theorem State.clearPacket_stream : (s.clearPacket).stream = s.stream := rfl
@[simp] theorem State.clearPacket_inputs : (s.clearPacket).inputs = s.inputs := rfl
@[simp] theorem State.clearPacket_obs : (s.clearPacket).obs = s.obs := rfl

@[simp] theorem State.commitPacket_status (h : Header) (p : Bytes) :
    (s.commitPacket h p).status = { s.status with pktValid := true } := rfl
@[simp] theorem State.commitPacket_errKind (h : Header) (p : Bytes) : (s.commitPacket h p).errKind = s.errKind := rfl
@[simp] theorem State.commitPacket_errReason (h : Header) (p : Bytes) : (s.commitPacket h p).errReason = s.errReason := rfl
@[simp] theorem State.commitPacket_errInfo (h : Header) (p : Bytes) : (s.commitPacket h p).errInfo = s.errInfo := rfl
@[simp] theorem State.commitPacket_phase (h : Header) (p : Bytes) : (s.commitPacket h p).phase = s.phase := rfl
@[simp] theorem State.commitPacket_oper (h : Header) (p : Bytes) : (s.commitPacket h p).oper = s.oper := rfl
@[simp] theorem State.commitPacket_key (h : Header) (p : Bytes) : (s.commitPacket h p).key = s.key := rfl
@[simp] theorem State.commitPacket_klen (h : Header) (p : Bytes) : (s.commitPacket h p).klen = s.klen := rfl
@[simp] theorem State.commitPacket_opiv (h : Header) (p : Bytes) : (s.commitPacket h p).opiv = s.opiv := rfl
@[simp] theorem State.commitPacket_ibuf (h : Header) (p : Bytes) : (s.commitPacket h p).ibuf = s.ibuf := rfl
@[simp] theorem State.commitPacket_ilen (h : Header) (p : Bytes) : (s.commitPacket h p).ilen = s.ilen := rfl
@[simp] theorem State.commitPacket_hfMagic (h : Header) (p : Bytes) : (s.commitPacket h p).hfMagic = s.hfMagic := rfl
@[simp] theorem State.commitPacket_hf (h : Header) (p : Bytes) : (s.commitPacket h p).hf = s.hf := rfl
@[simp] theorem State.commitPacket_pkt (h : Header) (p : Bytes) :
    (s.commitPacket h p).pkt = { pver := h.pver, plver := h.plver, devid := h.devid, flags := h.flags, iv := h.iv, plen := BitVec.ofNat 32 p.length } := rfl
@[simp] theorem State.commitPacket_pbuf (h : Header) (p : Bytes) : (s.commitPacket h p).pbuf = p := rfl
@[simp] theorem State.commitPacket_rbuf (h : Header) (p : Bytes) : (s.commitPacket h p).rbuf = s.rbuf := rfl
@[simp] theorem State.commitPacket_rlen (h : Header) (p : Bytes) : (s.commitPacket h p).rlen = s.rlen := rfl
@[simp] theorem State.commitPacket_wbuf (h : Header) (p : Bytes) : (s.commitPacket h p).wbuf = s.wbuf := rfl
@[simp] theorem State.commitPacket_hbuf (h : Header) (p : Bytes) : (s.commitPacket h p).hbuf = s.hbuf := rfl
@[simp] theorem State.commitPacket_out (h : Header) (p : Bytes) : (s.commitPacket h p).out = s.out := rfl
@[simp] theorem State.commitPacket_par (h : Header) (p : Bytes) : (s.commitPacket h p).par = s.par := rfl
@[simp] theorem State.commitPacket_stream (h : Header) (p : Bytes) : (s.commitPacket h p).stream = s.stream := rfl
@[simp] theorem State.commitPacket_inputs (h : Header) (p : Bytes) : (s.commitPacket h p).inputs = s.inputs := rfl
@[simp] theorem State.commitPacket_obs (h : Header) (p : Bytes) : (s.commitPacket h p).obs = s.obs := rfl

@[simp] theorem State.clearResult_status : (s.clearResult).status = { s.status with resValid := false } := rfl
@[simp] theorem State.clearResult_errKind : (s.clearResult).errKind = s.errKind := rfl
@[simp] theorem State.clearResult_errReason : (s.clearResult).errReason = s.errReason := rfl
@[simp] theorem State.clearResult_errInfo : (s.clearResult).errInfo = s.errInfo := rfl
@[simp] theorem State.clearResult_phase : (s.clearResult).phase = s.phase := rfl
@[simp] theorem State.clearResult_oper : (s.clearResult).oper = s.oper := rfl
@[simp] theorem State.clearResult_key : (s.clearResult).key = s.key := rfl
@[simp] theorem State.clearResult_klen : (s.clearResult).klen = s.klen := rfl
@[simp] theorem State.clearResult_opiv : (s.clearResult).opiv = s.opiv := rfl
@[simp] theorem State.clearResult_ibuf : (s.clearResult).ibuf = s.ibuf := rfl
@[simp] theorem State.clearResult_ilen : (s.clearResult).ilen = s.ilen := rfl
@[simp] theorem State.clearResult_hfMagic : (s.clearResult).hfMagic = s.hfMagic := rfl
@[simp] theorem State.clearResult_hf : (s.clearResult).hf = s.hf := rfl
@[simp] theorem State.clearResult_pkt : (s.clearResult).pkt = s.pkt := rfl
@[simp] theorem State.clearResult_pbuf : (s.clearResult).pbuf = s.pbuf := rfl
@[simp] theorem State.clearResult_rbuf : (s.clearResult).rbuf = s.rbuf := rfl
@[simp] theorem State.clearResult_rlen : (s.clearResult).rlen = 0#32 := rfl
@[simp] theorem State.clearResult_wbuf : (s.clearResult).wbuf = s.wbuf := rfl
@[simp] theorem State.clearResult_hbuf : (s.clearResult).hbuf = s.hbuf := rfl
@[simp] theorem State.clearResult_out : (s.clearResult).out = s.out := rfl
@[simp] theorem State.clearResult_par : (s.clearResult).par = s.par := rfl
@[simp] theorem State.clearResult_stream : (s.clearResult).stream = s.stream := rfl
@[simp] theorem State.clearResult_inputs : (s.clearResult).inputs = s.inputs := rfl
@[simp] theorem State.clearResult_obs : (s.clearResult).obs = s.obs := rfl

@[simp] theorem State.commitResult_status : (s.commitResult).status = { s.status with resValid := true } := rfl
@[simp] theorem State.commitResult_errKind : (s.commitResult).errKind = s.errKind := rfl
@[simp] theorem State.commitResult_errReason : (s.commitResult).errReason = s.errReason := rfl
@[simp] theorem State.commitResult_errInfo : (s.commitResult).errInfo = s.errInfo := rfl
@[simp] theorem State.commitResult_phase : (s.commitResult).phase = s.phase := rfl
@[simp] theorem State.commitResult_oper : (s.commitResult).oper = s.oper := rfl
@[simp] theorem State.commitResult_key : (s.commitResult).key = s.key := rfl
@[simp] theorem State.commitResult_klen : (s.commitResult).klen = s.klen := rfl
@[simp] theorem State.commitResult_opiv : (s.commitResult).opiv = s.opiv := rfl
@[simp] theorem State.commitResult_ibuf : (s.commitResult).ibuf = s.ibuf := rfl
@[simp] theorem State.commitResult_ilen : (s.commitResult).ilen = s.ilen := rfl
@[simp] theorem State.commitResult_hfMagic : (s.commitResult).hfMagic = s.hfMagic := rfl
@[simp] theorem State.commitResult_hf : (s.commitResult).hf = s.hf := rfl
@[simp] theorem State.commitResult_pkt : (s.commitResult).pkt = s.pkt := rfl
@[simp] theorem State.commitResult_pbuf : (s.commitResult).pbuf = s.pbuf := rfl
@[simp] theorem State.commitResult_rbuf : (s.commitResult).rbuf = s.wbuf := rfl
@[simp] theorem State.commitResult_rlen : (s.commitResult).rlen = BitVec.ofNat 32 s.wbuf.length := rfl
@[simp] theorem State.commitResult_wbuf : (s.commitResult).wbuf = s.wbuf := rfl
@[simp] theorem State.commitResult_hbuf : (s.commitResult).hbuf = s.hbuf := rfl
@[simp] theorem State.commitResult_out : (s.commitResult).out = s.out := rfl
@[simp] theorem State.commitResult_par : (s.commitResult).par = s.par := rfl
@[simp] theorem State.commitResult_stream : (s.commitResult).stream = s.stream := rfl
@[simp] theorem State.commitResult_inputs : (s.commitResult).inputs = s.inputs := rfl
@[simp] theorem State.commitResult_obs : (s.commitResult).obs = s.obs := rfl

@[simp] theorem State.setWork_status (b : Bytes) : (s.setWork b).status = s.status := rfl
@[simp] theorem State.setWork_errKind (b : Bytes) : (s.setWork b).errKind = s.errKind := rfl
@[simp] theorem State.setWork_errReason (b : Bytes) : (s.setWork b).errReason = s.errReason := rfl
@[simp] theorem State.setWork_errInfo (b : Bytes) : (s.setWork b).errInfo = s.errInfo := rfl
@[simp] theorem State.setWork_phase (b : Bytes) : (s.setWork b).phase = s.phase := rfl
@[simp] theorem State.setWork_oper (b : Bytes) : (s.setWork b).oper = s.oper := rfl
@[simp] theorem State.setWork_key (b : Bytes) : (s.setWork b).key = s.key := rfl
@[simp] theorem State.setWork_klen (b : Bytes) : (s.setWork b).klen = s.klen := rfl
@[simp] theorem State.setWork_opiv (b : Bytes) : (s.setWork b).opiv = s.opiv := rfl
@[simp] theorem State.setWork_ibuf (b : Bytes) : (s.setWork b).ibuf = s.ibuf := rfl
@[simp] theorem State.setWork_ilen (b : Bytes) : (s.setWork b).ilen = s.ilen := rfl
@[simp] theorem State.setWork_hfMagic (b : Bytes) : (s.setWork b).hfMagic = s.hfMagic := rfl
@[simp] theorem State.setWork_hf (b : Bytes) : (s.setWork b).hf = s.hf := rfl
@[simp] theorem State.setWork_pkt (b : Bytes) : (s.setWork b).pkt = s.pkt := rfl
@[simp] theorem State.setWork_pbuf (b : Bytes) : (s.setWork b).pbuf = s.pbuf := rfl
@[simp] theorem State.setWork_rbuf (b : Bytes) : (s.setWork b).rbuf = s.rbuf := rfl
@[simp] theorem State.setWork_rlen (b : Bytes) : (s.setWork b).rlen = s.rlen := rfl
@[simp] theorem State.setWork_wbuf (b : Bytes) : (s.setWork b).wbuf = b := rfl
@[simp] theorem State.setWork_hbuf (b : Bytes) : (s.setWork b).hbuf = s.hbuf := rfl
@[simp] theorem State.setWork_out (b : Bytes) : (s.setWork b).out = s.out := rfl
@[simp] theorem State.setWork_par (b : Bytes) : (s.setWork b).par = s.par := rfl
@[simp] theorem State.setWork_stream (b : Bytes) : (s.setWork b).stream = s.stream := rfl
@[simp] theorem State.setWork_inputs (b : Bytes) : (s.setWork b).inputs = s.inputs := rfl
@[simp] theorem State.setWork_obs (b : Bytes) : (s.setWork b).obs = s.obs := rfl

@[simp] theorem State.setHeaderBuffer_status (b : Bytes) : (s.setHeaderBuffer b).status = s.status := rfl
@[simp] theorem State.setHeaderBuffer_errKind (b : Bytes) : (s.setHeaderBuffer b).errKind = s.errKind := rfl
@[simp] theorem State.setHeaderBuffer_errReason (b : Bytes) : (s.setHeaderBuffer b).errReason = s.errReason := rfl
@[simp] theorem State.setHeaderBuffer_errInfo (b : Bytes) : (s.setHeaderBuffer b).errInfo = s.errInfo := rfl
@[simp] theorem State.setHeaderBuffer_phase (b : Bytes) : (s.setHeaderBuffer b).phase = s.phase := rfl
@[simp] theorem State.setHeaderBuffer_oper (b : Bytes) : (s.setHeaderBuffer b).oper = s.oper := rfl
@[simp] theorem State.setHeaderBuffer_key (b : Bytes) : (s.setHeaderBuffer b).key = s.key := rfl
@[simp] theorem State.setHeaderBuffer_klen (b : Bytes) : (s.setHeaderBuffer b).klen = s.klen := rfl
@[simp] theorem State.setHeaderBuffer_opiv (b : Bytes) : (s.setHeaderBuffer b).opiv = s.opiv := rfl
@[simp] theorem State.setHeaderBuffer_ibuf (b : Bytes) : (s.setHeaderBuffer b).ibuf = s.ibuf := rfl
@[simp] theorem State.setHeaderBuffer_ilen (b : Bytes) : (s.setHeaderBuffer b).ilen = s.ilen := rfl
@[simp] theorem State.setHeaderBuffer_hfMagic (b : Bytes) : (s.setHeaderBuffer b).hfMagic = s.hfMagic := rfl
@[simp] theorem State.setHeaderBuffer_hf (b : Bytes) : (s.setHeaderBuffer b).hf = s.hf := rfl
@[simp] theorem State.setHeaderBuffer_pkt (b : Bytes) : (s.setHeaderBuffer b).pkt = s.pkt := rfl
@[simp] theorem State.setHeaderBuffer_pbuf (b : Bytes) : (s.setHeaderBuffer b).pbuf = s.pbuf := rfl
@[simp] theorem State.setHeaderBuffer_rbuf (b : Bytes) : (s.setHeaderBuffer b).rbuf = s.rbuf := rfl
@[simp] theorem State.setHeaderBuffer_rlen (b : Bytes) : (s.setHeaderBuffer b).rlen = s.rlen := rfl
@[simp] theorem State.setHeaderBuffer_wbuf (b : Bytes) : (s.setHeaderBuffer b).wbuf = s.wbuf := rfl
@[simp] theorem State.setHeaderBuffer_hbuf (b : Bytes) : (s.setHeaderBuffer b).hbuf = b := rfl
@[simp] theorem State.setHeaderBuffer_out (b : Bytes) : (s.setHeaderBuffer b).out = s.out := rfl
@[simp] theorem State.setHeaderBuffer_par (b : Bytes) : (s.setHeaderBuffer b).par = s.par := rfl
@[simp] theorem State.setHeaderBuffer_stream (b : Bytes) : (s.setHeaderBuffer b).stream = s.stream := rfl
@[simp] theorem State.setHeaderBuffer_inputs (b : Bytes) : (s.setHeaderBuffer b).inputs = s.inputs := rfl
@[simp] theorem State.setHeaderBuffer_obs (b : Bytes) : (s.setHeaderBuffer b).obs = s.obs := rfl

@[simp] theorem State.request_status (r : Request) (p : Phase) : (s.request r p).status = s.status := rfl
@[simp] theorem State.request_errKind (r : Request) (p : Phase) : (s.request r p).errKind = s.errKind := rfl
@[simp] theorem State.request_errReason (r : Request) (p : Phase) : (s.request r p).errReason = s.errReason := rfl
@[simp] theorem State.request_errInfo (r : Request) (p : Phase) : (s.request r p).errInfo = s.errInfo := rfl
@[simp] theorem State.request_phase (r : Request) (p : Phase) : (s.request r p).phase = p := rfl
@[simp] theorem State.request_oper (r : Request) (p : Phase) : (s.request r p).oper = s.oper := rfl
@[simp] theorem State.request_key (r : Request) (p : Phase) : (s.request r p).key = s.key := rfl
@[simp] theorem State.request_klen (r : Request) (p : Phase) : (s.request r p).klen = s.klen := rfl
@[simp] theorem State.request_opiv (r : Request) (p : Phase) : (s.request r p).opiv = s.opiv := rfl
@[simp] theorem State.request_ibuf (r : Request) (p : Phase) : (s.request r p).ibuf = s.ibuf := rfl
@[simp] theorem State.request_ilen (r : Request) (p : Phase) : (s.request r p).ilen = s.ilen := rfl
@[simp] theorem State.request_hfMagic (r : Request) (p : Phase) : (s.request r p).hfMagic = s.hfMagic := rfl
@[simp] theorem State.request_hf (r : Request) (p : Phase) : (s.request r p).hf = s.hf := rfl
@[simp] theorem State.request_pkt (r : Request) (p : Phase) : (s.request r p).pkt = s.pkt := rfl
@[simp] theorem State.request_pbuf (r : Request) (p : Phase) : (s.request r p).pbuf = s.pbuf := rfl
@[simp] theorem State.request_rbuf (r : Request) (p : Phase) : (s.request r p).rbuf = s.rbuf := rfl
@[simp] theorem State.request_rlen (r : Request) (p : Phase) : (s.request r p).rlen = s.rlen := rfl
@[simp] theorem State.request_wbuf (r : Request) (p : Phase) : (s.request r p).wbuf = s.wbuf := rfl
@[simp] theorem State.request_hbuf (r : Request) (p : Phase) : (s.request r p).hbuf = s.hbuf := rfl
@[simp] theorem State.request_out (r : Request) (p : Phase) : (s.request r p).out = some r := rfl
@[simp] theorem State.request_par (r : Request) (p : Phase) : (s.request r p).par = s.par := rfl
@[simp] theorem State.request_stream (r : Request) (p : Phase) : (s.request r p).stream = s.stream := rfl
@[simp] theorem State.request_inputs (r : Request) (p : Phase) : (s.request r p).inputs = s.inputs := rfl
@[simp] theorem State.request_obs (r : Request) (p : Phase) : (s.request r p).obs = .request r :: s.obs := rfl

@[simp] theorem State.finishWork_status :
    (s.finishWork).status = { s.status with busy := false, done := true, resValid := true } := rfl
@[simp] theorem State.finishWork_errKind : (s.finishWork).errKind = s.errKind := rfl
@[simp] theorem State.finishWork_errReason : (s.finishWork).errReason = s.errReason := rfl
@[simp] theorem State.finishWork_errInfo : (s.finishWork).errInfo = s.errInfo := rfl
@[simp] theorem State.finishWork_phase : (s.finishWork).phase = .idle := rfl
@[simp] theorem State.finishWork_oper : (s.finishWork).oper = none := rfl
@[simp] theorem State.finishWork_key : (s.finishWork).key = s.key := rfl
@[simp] theorem State.finishWork_klen : (s.finishWork).klen = s.klen := rfl
@[simp] theorem State.finishWork_opiv : (s.finishWork).opiv = s.opiv := rfl
@[simp] theorem State.finishWork_ibuf : (s.finishWork).ibuf = s.ibuf := rfl
@[simp] theorem State.finishWork_ilen : (s.finishWork).ilen = s.ilen := rfl
@[simp] theorem State.finishWork_hfMagic : (s.finishWork).hfMagic = s.hfMagic := rfl
@[simp] theorem State.finishWork_hf : (s.finishWork).hf = s.hf := rfl
@[simp] theorem State.finishWork_pkt : (s.finishWork).pkt = s.pkt := rfl
@[simp] theorem State.finishWork_pbuf : (s.finishWork).pbuf = s.pbuf := rfl
@[simp] theorem State.finishWork_rbuf : (s.finishWork).rbuf = s.wbuf := rfl
@[simp] theorem State.finishWork_rlen : (s.finishWork).rlen = BitVec.ofNat 32 s.wbuf.length := rfl
@[simp] theorem State.finishWork_wbuf : (s.finishWork).wbuf = s.wbuf := rfl
@[simp] theorem State.finishWork_hbuf : (s.finishWork).hbuf = s.hbuf := rfl
@[simp] theorem State.finishWork_out : (s.finishWork).out = none := rfl
@[simp] theorem State.finishWork_par : (s.finishWork).par = s.par := rfl
@[simp] theorem State.finishWork_stream : (s.finishWork).stream = s.stream := rfl
@[simp] theorem State.finishWork_inputs : (s.finishWork).inputs = s.inputs := rfl
@[simp] theorem State.finishWork_obs : (s.finishWork).obs = s.obs := rfl

@[simp] theorem State.writeKey_status (b : Bytes) : (s.writeKey b).status = s.status := rfl
@[simp] theorem State.writeKey_errKind (b : Bytes) : (s.writeKey b).errKind = s.errKind := rfl
@[simp] theorem State.writeKey_errReason (b : Bytes) : (s.writeKey b).errReason = s.errReason := rfl
@[simp] theorem State.writeKey_errInfo (b : Bytes) : (s.writeKey b).errInfo = s.errInfo := rfl
@[simp] theorem State.writeKey_phase (b : Bytes) : (s.writeKey b).phase = s.phase := rfl
@[simp] theorem State.writeKey_oper (b : Bytes) : (s.writeKey b).oper = s.oper := rfl
@[simp] theorem State.writeKey_key (b : Bytes) : (s.writeKey b).key = b := rfl
@[simp] theorem State.writeKey_klen (b : Bytes) : (s.writeKey b).klen = BitVec.ofNat 8 b.length := rfl
@[simp] theorem State.writeKey_opiv (b : Bytes) : (s.writeKey b).opiv = s.opiv := rfl
@[simp] theorem State.writeKey_ibuf (b : Bytes) : (s.writeKey b).ibuf = s.ibuf := rfl
@[simp] theorem State.writeKey_ilen (b : Bytes) : (s.writeKey b).ilen = s.ilen := rfl
@[simp] theorem State.writeKey_hfMagic (b : Bytes) : (s.writeKey b).hfMagic = s.hfMagic := rfl
@[simp] theorem State.writeKey_hf (b : Bytes) : (s.writeKey b).hf = s.hf := rfl
@[simp] theorem State.writeKey_pkt (b : Bytes) : (s.writeKey b).pkt = s.pkt := rfl
@[simp] theorem State.writeKey_pbuf (b : Bytes) : (s.writeKey b).pbuf = s.pbuf := rfl
@[simp] theorem State.writeKey_rbuf (b : Bytes) : (s.writeKey b).rbuf = s.rbuf := rfl
@[simp] theorem State.writeKey_rlen (b : Bytes) : (s.writeKey b).rlen = s.rlen := rfl
@[simp] theorem State.writeKey_wbuf (b : Bytes) : (s.writeKey b).wbuf = s.wbuf := rfl
@[simp] theorem State.writeKey_hbuf (b : Bytes) : (s.writeKey b).hbuf = s.hbuf := rfl
@[simp] theorem State.writeKey_out (b : Bytes) : (s.writeKey b).out = s.out := rfl
@[simp] theorem State.writeKey_par (b : Bytes) : (s.writeKey b).par = s.par := rfl
@[simp] theorem State.writeKey_stream (b : Bytes) : (s.writeKey b).stream = s.stream := rfl
@[simp] theorem State.writeKey_inputs (b : Bytes) : (s.writeKey b).inputs = s.inputs := rfl
@[simp] theorem State.writeKey_obs (b : Bytes) : (s.writeKey b).obs = s.obs := rfl

@[simp] theorem State.writeOpiv_status (b : Bytes) : (s.writeOpiv b).status = s.status := rfl
@[simp] theorem State.writeOpiv_errKind (b : Bytes) : (s.writeOpiv b).errKind = s.errKind := rfl
@[simp] theorem State.writeOpiv_errReason (b : Bytes) : (s.writeOpiv b).errReason = s.errReason := rfl
@[simp] theorem State.writeOpiv_errInfo (b : Bytes) : (s.writeOpiv b).errInfo = s.errInfo := rfl
@[simp] theorem State.writeOpiv_phase (b : Bytes) : (s.writeOpiv b).phase = s.phase := rfl
@[simp] theorem State.writeOpiv_oper (b : Bytes) : (s.writeOpiv b).oper = s.oper := rfl
@[simp] theorem State.writeOpiv_key (b : Bytes) : (s.writeOpiv b).key = s.key := rfl
@[simp] theorem State.writeOpiv_klen (b : Bytes) : (s.writeOpiv b).klen = s.klen := rfl
@[simp] theorem State.writeOpiv_opiv (b : Bytes) : (s.writeOpiv b).opiv = b := rfl
@[simp] theorem State.writeOpiv_ibuf (b : Bytes) : (s.writeOpiv b).ibuf = s.ibuf := rfl
@[simp] theorem State.writeOpiv_ilen (b : Bytes) : (s.writeOpiv b).ilen = s.ilen := rfl
@[simp] theorem State.writeOpiv_hfMagic (b : Bytes) : (s.writeOpiv b).hfMagic = s.hfMagic := rfl
@[simp] theorem State.writeOpiv_hf (b : Bytes) : (s.writeOpiv b).hf = s.hf := rfl
@[simp] theorem State.writeOpiv_pkt (b : Bytes) : (s.writeOpiv b).pkt = s.pkt := rfl
@[simp] theorem State.writeOpiv_pbuf (b : Bytes) : (s.writeOpiv b).pbuf = s.pbuf := rfl
@[simp] theorem State.writeOpiv_rbuf (b : Bytes) : (s.writeOpiv b).rbuf = s.rbuf := rfl
@[simp] theorem State.writeOpiv_rlen (b : Bytes) : (s.writeOpiv b).rlen = s.rlen := rfl
@[simp] theorem State.writeOpiv_wbuf (b : Bytes) : (s.writeOpiv b).wbuf = s.wbuf := rfl
@[simp] theorem State.writeOpiv_hbuf (b : Bytes) : (s.writeOpiv b).hbuf = s.hbuf := rfl
@[simp] theorem State.writeOpiv_out (b : Bytes) : (s.writeOpiv b).out = s.out := rfl
@[simp] theorem State.writeOpiv_par (b : Bytes) : (s.writeOpiv b).par = s.par := rfl
@[simp] theorem State.writeOpiv_stream (b : Bytes) : (s.writeOpiv b).stream = s.stream := rfl
@[simp] theorem State.writeOpiv_inputs (b : Bytes) : (s.writeOpiv b).inputs = s.inputs := rfl
@[simp] theorem State.writeOpiv_obs (b : Bytes) : (s.writeOpiv b).obs = s.obs := rfl

@[simp] theorem State.writeIbuf_status (b : Bytes) : (s.writeIbuf b).status = s.status := rfl
@[simp] theorem State.writeIbuf_errKind (b : Bytes) : (s.writeIbuf b).errKind = s.errKind := rfl
@[simp] theorem State.writeIbuf_errReason (b : Bytes) : (s.writeIbuf b).errReason = s.errReason := rfl
@[simp] theorem State.writeIbuf_errInfo (b : Bytes) : (s.writeIbuf b).errInfo = s.errInfo := rfl
@[simp] theorem State.writeIbuf_phase (b : Bytes) : (s.writeIbuf b).phase = s.phase := rfl
@[simp] theorem State.writeIbuf_oper (b : Bytes) : (s.writeIbuf b).oper = s.oper := rfl
@[simp] theorem State.writeIbuf_key (b : Bytes) : (s.writeIbuf b).key = s.key := rfl
@[simp] theorem State.writeIbuf_klen (b : Bytes) : (s.writeIbuf b).klen = s.klen := rfl
@[simp] theorem State.writeIbuf_opiv (b : Bytes) : (s.writeIbuf b).opiv = s.opiv := rfl
@[simp] theorem State.writeIbuf_ibuf (b : Bytes) : (s.writeIbuf b).ibuf = b := rfl
@[simp] theorem State.writeIbuf_ilen (b : Bytes) : (s.writeIbuf b).ilen = BitVec.ofNat 32 b.length := rfl
@[simp] theorem State.writeIbuf_hfMagic (b : Bytes) : (s.writeIbuf b).hfMagic = s.hfMagic := rfl
@[simp] theorem State.writeIbuf_hf (b : Bytes) : (s.writeIbuf b).hf = s.hf := rfl
@[simp] theorem State.writeIbuf_pkt (b : Bytes) : (s.writeIbuf b).pkt = s.pkt := rfl
@[simp] theorem State.writeIbuf_pbuf (b : Bytes) : (s.writeIbuf b).pbuf = s.pbuf := rfl
@[simp] theorem State.writeIbuf_rbuf (b : Bytes) : (s.writeIbuf b).rbuf = s.rbuf := rfl
@[simp] theorem State.writeIbuf_rlen (b : Bytes) : (s.writeIbuf b).rlen = s.rlen := rfl
@[simp] theorem State.writeIbuf_wbuf (b : Bytes) : (s.writeIbuf b).wbuf = s.wbuf := rfl
@[simp] theorem State.writeIbuf_hbuf (b : Bytes) : (s.writeIbuf b).hbuf = s.hbuf := rfl
@[simp] theorem State.writeIbuf_out (b : Bytes) : (s.writeIbuf b).out = s.out := rfl
@[simp] theorem State.writeIbuf_par (b : Bytes) : (s.writeIbuf b).par = s.par := rfl
@[simp] theorem State.writeIbuf_stream (b : Bytes) : (s.writeIbuf b).stream = s.stream := rfl
@[simp] theorem State.writeIbuf_inputs (b : Bytes) : (s.writeIbuf b).inputs = s.inputs := rfl
@[simp] theorem State.writeIbuf_obs (b : Bytes) : (s.writeIbuf b).obs = s.obs := rfl

@[simp] theorem State.patchIbuf_status (a : Nat) (b : Bytes) : (s.patchIbuf a b).status = s.status := rfl
@[simp] theorem State.patchIbuf_errKind (a : Nat) (b : Bytes) : (s.patchIbuf a b).errKind = s.errKind := rfl
@[simp] theorem State.patchIbuf_errReason (a : Nat) (b : Bytes) : (s.patchIbuf a b).errReason = s.errReason := rfl
@[simp] theorem State.patchIbuf_errInfo (a : Nat) (b : Bytes) : (s.patchIbuf a b).errInfo = s.errInfo := rfl
@[simp] theorem State.patchIbuf_phase (a : Nat) (b : Bytes) : (s.patchIbuf a b).phase = s.phase := rfl
@[simp] theorem State.patchIbuf_oper (a : Nat) (b : Bytes) : (s.patchIbuf a b).oper = s.oper := rfl
@[simp] theorem State.patchIbuf_key (a : Nat) (b : Bytes) : (s.patchIbuf a b).key = s.key := rfl
@[simp] theorem State.patchIbuf_klen (a : Nat) (b : Bytes) : (s.patchIbuf a b).klen = s.klen := rfl
@[simp] theorem State.patchIbuf_opiv (a : Nat) (b : Bytes) : (s.patchIbuf a b).opiv = s.opiv := rfl
@[simp] theorem State.patchIbuf_ibuf (a : Nat) (b : Bytes) : (s.patchIbuf a b).ibuf = overwrite s.ibuf a b := rfl
@[simp] theorem State.patchIbuf_ilen (a : Nat) (b : Bytes) : (s.patchIbuf a b).ilen = s.ilen := rfl
@[simp] theorem State.patchIbuf_hfMagic (a : Nat) (b : Bytes) : (s.patchIbuf a b).hfMagic = s.hfMagic := rfl
@[simp] theorem State.patchIbuf_hf (a : Nat) (b : Bytes) : (s.patchIbuf a b).hf = s.hf := rfl
@[simp] theorem State.patchIbuf_pkt (a : Nat) (b : Bytes) : (s.patchIbuf a b).pkt = s.pkt := rfl
@[simp] theorem State.patchIbuf_pbuf (a : Nat) (b : Bytes) : (s.patchIbuf a b).pbuf = s.pbuf := rfl
@[simp] theorem State.patchIbuf_rbuf (a : Nat) (b : Bytes) : (s.patchIbuf a b).rbuf = s.rbuf := rfl
@[simp] theorem State.patchIbuf_rlen (a : Nat) (b : Bytes) : (s.patchIbuf a b).rlen = s.rlen := rfl
@[simp] theorem State.patchIbuf_wbuf (a : Nat) (b : Bytes) : (s.patchIbuf a b).wbuf = s.wbuf := rfl
@[simp] theorem State.patchIbuf_hbuf (a : Nat) (b : Bytes) : (s.patchIbuf a b).hbuf = s.hbuf := rfl
@[simp] theorem State.patchIbuf_out (a : Nat) (b : Bytes) : (s.patchIbuf a b).out = s.out := rfl
@[simp] theorem State.patchIbuf_par (a : Nat) (b : Bytes) : (s.patchIbuf a b).par = s.par := rfl
@[simp] theorem State.patchIbuf_stream (a : Nat) (b : Bytes) : (s.patchIbuf a b).stream = s.stream := rfl
@[simp] theorem State.patchIbuf_inputs (a : Nat) (b : Bytes) : (s.patchIbuf a b).inputs = s.inputs := rfl
@[simp] theorem State.patchIbuf_obs (a : Nat) (b : Bytes) : (s.patchIbuf a b).obs = s.obs := rfl

@[simp] theorem State.applyReset_par (k : Nat) : (s.applyReset k).par = s.par := rfl
@[simp] theorem State.applyReset_stream (k : Nat) : (s.applyReset k).stream = s.abandonedStream k := rfl
@[simp] theorem State.applyReset_inputs (k : Nat) : (s.applyReset k).inputs = s.inputs := rfl
@[simp] theorem State.applyReset_obs (k : Nat) : (s.applyReset k).obs = s.obs := rfl

/-- R251: an abandoned source read has consumed what it has consumed. -/
theorem State.abandonedStream_of_source {n : Nat} (h : s.out = some (.src n)) (k : Nat) :
    s.abandonedStream k = s.stream.drop k := by simp [State.abandonedStream, h]

/-- R63: with no source read outstanding, a reset takes nothing from the stream. -/
theorem State.abandonedStream_of_other (h : ∀ n, s.out ≠ some (.src n)) (k : Nat) : s.abandonedStream k = s.stream := by
  unfold State.abandonedStream
  split
  · rename_i n hn; exact absurd hn (h n)
  all_goals rfl

end

end Sys2Proof.Machine
end

