-- ==== Sys2Proof/Laws/Ops.lean ====
section
/-! SUPPORT. What each shared operation can do, once; later proofs cite these and do not unfold. -/

open Sys2Proof

namespace Sys2Proof.Machine

variable {s : State}

/-! ## Commands (R192) -/

theorem command_of_idle (s : State) (o : Option Oper) (body : State → State) (hb : s.status.busy = false) :
  s.command o body = .next (body (s.accept.setOper o)) := by simp [State.command, hb]

theorem command_next {o : Option Oper} {body : State → State} {t : State} :
    s.command o body = .next t ↔ s.status.busy = false ∧ t = body (s.accept.setOper o) := by
  unfold State.command
  cases s.status.busy <;> simp [eq_comm]

theorem command_refused {o : Option Oper} {body : State → State} (h : s.status.busy = true) :
    s.command o body = .refused .busy := by
  simp [State.command, h]

/-! ## The flags (R93, R101) -/

theorem flag_tests_of_class (f : BitVec 16) :
    isEncrypted f = (flagsClass f).getLsbD 0 ∧ isCompressed f = (flagsClass f).getLsbD 1 ∧
      isSnappy f = (flagsClass f).getLsbD 2 := by
  unfold flagsClass
  cases isEncrypted f <;> cases isCompressed f <;> cases isSnappy f <;> decide

/-- R101: the class is what the mask of the three flags leaves. -/
theorem flagsClass_of_mask (f : BitVec 16) (k : BitVec 16) (h : f &&& 7#16 = k) : flagsClass f = k.extractLsb' 0 3 := by
  obtain ⟨h0, h1, h2⟩ := flag_bits f
  subst h
  have b : ∀ i, i < 3 → ((f &&& 7#16).extractLsb' 0 3).getLsbD i = f.getLsbD i := by
    intro i hi
    rw [BitVec.getLsbD_extractLsb', BitVec.getLsbD_and, decide_eq_true hi, Nat.zero_add]
    have : (7#16).getLsbD i = true := by revert hi i; decide
    rw [this, Bool.and_true, Bool.true_and]
  obtain ⟨t0, t1, t2⟩ := flag_tests_of_class f
  apply BitVec.eq_of_getLsbD_eq
  intro i hi
  rw [b i hi]
  match i, hi with
  | 0, _ => rw [← t0, h0]
  | 1, _ => rw [← t1, h1]
  | 2, _ => rw [← t2, h2]

theorem secondLevel_of_held (s : State) (k st) (hb : s.status.busy = false) (hp : s.status.pktValid = true) (hk : flagsClass s.pkt.flags = k) :
  s.secondLevel k st = .next (st (s.accept.setOper (some .resolve)).startResolve) := by
  simp [State.secondLevel, hb, hp, hk, command_of_idle]

theorem secondLevel_without_packet (s : State) (k st) (hb : s.status.busy = false) (hp : s.status.pktValid = false)  :
  s.secondLevel k st = .next ((s.accept.setOper (some .resolve)).raise .noPacket) := by
  simp [State.secondLevel, hb, hp, command_of_idle]

theorem resolve_of_packet (s : State) (hb : s.status.busy = false) (hp : s.status.pktValid = true) :
    execResolve s = .next
      (if isEncrypted s.pkt.flags then (s.accept.setOper (some .resolve)).startResolve.decryptStage
       else (s.accept.setOper (some .resolve)).startResolve.afterDecrypt) := by
  simp [execResolve, command_of_idle, hb, State.resolveBody, hp]
  rfl

/-! ## The stages (R145, R170) -/

/-- R145: the three things the decrypt stage can do before the cipher answers. -/
theorem startDecrypt_cases (u : State) (key iv : Bytes) :
    (key.length ≠ 16 ∧ u.startDecrypt key iv = u.raise .invalidKey) ∨
    (key.length = 16 ∧ u.wbuf.length % 16 ≠ 0 ∧ u.startDecrypt key iv = u.raise .notPadded) ∨
    (key.length = 16 ∧ u.wbuf.length % 16 = 0 ∧ u.startDecrypt key iv = u.request (.ciph key iv u.wbuf) .ciphWait) := by
  unfold State.startDecrypt
  simp only [Config.keyLen, Config.block]
  by_cases hk : key.length = 16
  · by_cases hl : u.wbuf.length % 16 = 0 <;> simp [hk, hl]
  · simp [hk]

/-- R175, R176: the two things the snappy stage can do before the decompressor answers. -/
theorem snappyStage_cases (u : State) :
    (u.wbuf.length < 10 ∧ u.snappyStage = u.raise .shorterThanTrailer) ∨
    (10 ≤ u.wbuf.length ∧ u.snappyStage = u.request (.dcmp (withoutTrailer u.wbuf)) .dcmpWait) := by
  unfold State.snappyStage
  simp only [Config.trailerLen]
  by_cases h : u.wbuf.length < 10
  · simp [h]
  · simp [h]; omega

/-- R170 steps 3 to 5: what the later stages can do. -/
theorem afterDecrypt_cases (u : State) :
    (isCompressed u.pkt.flags = true ∧ u.afterDecrypt = u.raise .compressedFlag) ∨
    (isCompressed u.pkt.flags = false ∧ isSnappy u.pkt.flags = true ∧ u.afterDecrypt = u.snappyStage) ∨
    (isCompressed u.pkt.flags = false ∧ isSnappy u.pkt.flags = false ∧ u.afterDecrypt = u.finishWork) := by
  unfold State.afterDecrypt State.legacyStage
  cases isCompressed u.pkt.flags <;> cases isSnappy u.pkt.flags <;> simp

theorem finishWork_eq (s : State) : s.finishWork = s.commitResult.complete := rfl

theorem startDecrypt_phase (u : State) (k i) : (u.startDecrypt k i).phase = .idle ∨ (u.startDecrypt k i).phase = .ciphWait := by
  unfold State.startDecrypt; split <;> [simp; (split <;> simp)]

theorem snappyStage_phase (u : State) : (u.snappyStage).phase = .idle ∨ (u.snappyStage).phase = .dcmpWait := by
  unfold State.snappyStage; split <;> simp

theorem afterDecrypt_phase (u : State) : (u.afterDecrypt).phase = .idle ∨ (u.afterDecrypt).phase = .dcmpWait := by
  unfold State.afterDecrypt; split
  · simp [State.legacyStage]
  · split
    · exact snappyStage_phase u
    · simp [State.finishWork]

/-! ## The remover (R160) -/

theorem unpad_length {b u : Bytes} (h : unpad b = .ok u) : u.length < b.length := by
  unfold unpad at h
  split at h
  · cases h
  · rename_i x hx
    simp only at h
    split at h
    · cases h
    · split at h
      · cases h
        have : b.length ≠ 0 := by intro h0; rw [List.length_eq_zero_iff] at h0; subst h0; simp at hx
        simp; omega
      · cases h

theorem unpad_error {b : Bytes} {e : Err} (h : unpad b = .error e) :
    e.info = 0 ∧ e ∈ [Err.noData, .notPadded, .structureInvalid] := by
  unfold unpad at h
  split at h
  · cases h; simp [Err.info]
  · simp only at h
    split at h
    · cases h; simp [Err.info]
    · split at h
      · cases h
      · cases h; simp [Err.info]

/-! ## The collaborators' answers -/

theorem cbcDecrypt_length (k i c) : (Config.cbcDecrypt k i c).length = c.length := by simp [Config.cbcDecrypt]

end Sys2Proof.Machine
end

