-- ==== Sys2Proof/Laws/Memory.lean ====
section
/-! SUPPORT. The buffers keep their canonical form under every operation that writes one (R25, R27, R29, R30, R190). -/

open Sys2Proof

namespace Sys2Proof.Machine

variable {s : State}

theorem Params.wf_iff (p : Params) : p.wf = true ↔
   1 ≤ p.maxPayload ∧ p.maxPayload ≤ 2 ^ 32 - 1 ∧ 40 ≤ p.maxOperand ∧ p.maxOperand ≤ 2 ^ 32 - 1 ∧ p.maxPayload ≤ p.maxResult ∧ p.maxResult ≤ 2 ^ 32 - 1 ∧ 32 ≤ p.keyMax ∧ p.keyMax ≤ 255 := by
  simp only [Params.wf, Config.headerLen, Bool.and_eq_true, decide_eq_true_eq, and_assoc]
  exact ⟨fun ⟨a, b, c, d⟩ => ⟨a, b, of_decide_eq_true c, d⟩, fun ⟨a, b, c, d⟩ => ⟨a, b, decide_eq_true c, d⟩⟩

theorem toNat_ofNat32 {n : Nat} (h : n ≤ 2 ^ 32 - 1) : (BitVec.ofNat 32 n).toNat = n := by
  rw [BitVec.toNat_ofNat]; omega

theorem overwrite_length (b v : Bytes) (a : Nat) (h : a + v.length ≤ b.length) : (overwrite b a v).length = b.length := by
  simp [overwrite]; omega

theorem overwrite_inside (b v : Bytes) (a j : Nat) (h : a + v.length ≤ b.length) (hj : j < v.length) :
    (overwrite b a v)[a + j]? = v[j]? := by
  have ha : (b.take a).length = a := by simp; omega
  unfold overwrite
  rw [List.append_assoc, List.getElem?_append_right (by omega), ha, Nat.add_sub_cancel_left,
    List.getElem?_append_left hj]

theorem overwrite_outside (b v : Bytes) (a j : Nat) (h : a + v.length ≤ b.length) (hj : j < a ∨ a + v.length ≤ j) :
    (overwrite b a v)[j]? = b[j]? := by
  have ha : (b.take a).length = a := by simp; omega
  unfold overwrite
  rw [List.append_assoc]
  rcases hj with hj | hj
  · rw [List.getElem?_append_left (by omega), List.getElem?_take_of_lt hj]
  · rw [List.getElem?_append_right (by omega), List.getElem?_append_right (by omega), List.getElem?_drop]
    congr 1
    omega

/-! ## Memory.wf -/

theorem Memory.wf_reset : Memory.wf State.reset := by decide

theorem Memory.wf_applyReset (k : Nat) : Memory.wf (s.applyReset k) := by
  refine ⟨rfl, rfl, Nat.zero_le _, ?_, ?_⟩ <;> intro h <;> cases h

theorem Memory.wf_writeKey (h : Memory.wf s) {k : Bytes} (hk : k.length ≤ 255) : Memory.wf (s.writeKey k) :=
  ⟨by simp only [State.writeKey_klen, State.writeKey_key, BitVec.toNat_ofNat]; omega, h.2.1, h.2.2.1, h.2.2.2.1, h.2.2.2.2⟩

theorem Memory.wf_writeOpiv (h : Memory.wf s) (v : Bytes) : Memory.wf (s.writeOpiv v) := h

theorem Memory.wf_writeIbuf (h : Memory.wf s) {b : Bytes} (hb : b.length ≤ s.par.maxOperand) (hp : s.par.maxOperand ≤ 2 ^ 32 - 1) :
    Memory.wf (s.writeIbuf b) :=
  ⟨h.1, toNat_ofNat32 (by omega), hb, h.2.2.2.1, h.2.2.2.2⟩

theorem Memory.wf_patchIbuf (h : Memory.wf s) {a : Nat} {v : Bytes} (hv : a + v.length ≤ s.ilen.toNat) :
    Memory.wf (s.patchIbuf a v) := by
  have hl : (overwrite s.ibuf a v).length = s.ibuf.length := overwrite_length _ _ _ (by rw [← h.2.1]; exact hv)
  refine ⟨h.1, ?_, ?_, h.2.2.2.1, h.2.2.2.2⟩
  · rw [State.patchIbuf_ibuf, hl]; exact h.2.1
  · rw [State.patchIbuf_ibuf, hl]; exact h.2.2.1

theorem Memory.wf_commitPacket (h : Memory.wf s) (f : Header) {p : Bytes} (hp : p.length ≤ 2 ^ 32 - 1) :
    Memory.wf (s.commitPacket f p) :=
  ⟨h.1, h.2.1, h.2.2.1, fun _ => toNat_ofNat32 hp, h.2.2.2.2⟩

theorem Memory.wf_clearPacket (h : Memory.wf s) : Memory.wf s.clearPacket :=
  ⟨h.1, h.2.1, h.2.2.1, (by intro hc; cases hc), h.2.2.2.2⟩

theorem Memory.wf_commitResult (h : Memory.wf s) (hw : s.wbuf.length ≤ 2 ^ 32 - 1) : Memory.wf s.commitResult :=
  ⟨h.1, h.2.1, h.2.2.1, h.2.2.2.1, fun _ => toNat_ofNat32 hw⟩

theorem Memory.wf_clearResult (h : Memory.wf s) : Memory.wf s.clearResult :=
  ⟨h.1, h.2.1, h.2.2.1, h.2.2.2.1, by intro hc; cases hc⟩

/-- The operations that write no buffer with a length register. -/
theorem Memory.wf_others (h : Memory.wf s) (o : Option Oper) (e : Err) (f : Header) (b : Bytes) (r : Request) (p : Phase) :
    Memory.wf s.accept ∧ Memory.wf s.complete ∧ Memory.wf (s.raise e) ∧ Memory.wf (s.setOper o) ∧ Memory.wf s.clearHeader ∧
      Memory.wf (s.commitHeader f) ∧ Memory.wf (s.setWork b) ∧ Memory.wf (s.setHeaderBuffer b) ∧ Memory.wf (s.request r p) :=
  ⟨h, h, h, h, h, h, h, h, h⟩

theorem State.DataOk.memory_wf (h : s.DataOk) : Memory.wf s :=
  ⟨h.keyLength, h.ibufLength, h.ibufCapacity, fun hp => (h.packet hp).1, h.result⟩

end Sys2Proof.Machine
end

