-- ==== Sys2Proof/Laws/Invariant.lean ====
section
/-! SUPPORT. The shared operations and the stages keep the invariant of Safety.lean. -/

open Sys2Proof

namespace Sys2Proof.Machine

variable {s : State}

/-! ## The data -/

theorem State.DataOk.accept (h : s.DataOk) : s.accept.DataOk := { h with }

theorem State.DataOk.setOper (h : s.DataOk) (o) : (s.setOper o).DataOk := { h with }

theorem State.DataOk.complete (h : s.DataOk) : s.complete.DataOk := { h with }

theorem State.DataOk.raise (h : s.DataOk) (e) : (s.raise e).DataOk := { h with }

theorem State.DataOk.clearHeader (h : s.DataOk) : s.clearHeader.DataOk := { h with header := by simp }

theorem State.DataOk.commitHeader (h : s.DataOk) {f : Header} (hf : f.wf = true) :
    (s.commitHeader f).DataOk := { h with header := by simp [hf] }

theorem State.DataOk.clearPacket (h : s.DataOk) : s.clearPacket.DataOk := { h with packet := by simp }

theorem State.DataOk.commitPacket (h : s.DataOk) {f : Header} {p : Bytes} (hf : f.wf = true) (h1 : 1 ≤ p.length)
    (h2 : p.length ≤ s.par.maxPayload) :
    (s.commitPacket f p).DataOk :=
  { h with
    packet := by
      have hp := (Params.wf_iff _).mp h.params
      intro _
      simp only [Header.wf, Bool.and_eq_true, beq_iff_eq] at hf
      exact ⟨by simpa using toNat_ofNat32 (n := p.length) (by omega), by simpa using h1, by simpa using h2, by simpa using hf.1, by simpa using hf.2⟩ }

theorem State.DataOk.clearResult (h : s.DataOk) : s.clearResult.DataOk := { h with result := by simp, noResult := by simp }

theorem State.DataOk.commitResult (h : s.DataOk) (hw : s.wbuf.length ≤ 2 ^ 32 - 1) : s.commitResult.DataOk :=
  { h with result := by intro _; exact toNat_ofNat32 hw, noResult := by simp }

theorem State.DataOk.setWork (h : s.DataOk) (b) : (s.setWork b).DataOk := { h with }

theorem State.DataOk.setHeaderBuffer (h : s.DataOk) {b : Bytes} (hb : b.length = 40) :
    (s.setHeaderBuffer b).DataOk := { h with headerBuffer := hb }

theorem State.DataOk.request (h : s.DataOk) (r p) : (s.request r p).DataOk := { h with }

theorem State.DataOk.writeKey (h : s.DataOk) {k : Bytes} (hk : k.length ≤ s.par.keyMax) : (s.writeKey k).DataOk :=
  { h with keyLength := by
            have hp := (Params.wf_iff _).mp h.params
            simp only [State.writeKey_klen, State.writeKey_key, BitVec.toNat_ofNat]; omega
           keyCapacity := hk }

theorem State.DataOk.writeOpiv (h : s.DataOk) {k : Bytes} (hk : k.length = 16) :
    (s.writeOpiv k).DataOk := { h with opivLength := hk }

theorem State.DataOk.writeIbuf (h : s.DataOk) {k : Bytes} (hk : k.length ≤ s.par.maxOperand) : (s.writeIbuf k).DataOk :=
  { h with ibufLength := by
            have hp := (Params.wf_iff _).mp h.params
            exact toNat_ofNat32 (by omega)
           ibufCapacity := hk }

theorem State.DataOk.patchIbuf (h : s.DataOk) {a} {v : Bytes} (hk : a + v.length ≤ s.ilen.toNat) : (s.patchIbuf a v).DataOk :=
  { h with ibufLength := by rw [State.patchIbuf_ibuf, overwrite_length _ _ _ (by rw [← h.ibufLength]; exact hk)]; exact h.ibufLength
           ibufCapacity := by rw [State.patchIbuf_ibuf, overwrite_length _ _ _ (by rw [← h.ibufLength]; exact hk)]; exact h.ibufCapacity }

theorem State.DataOk.reset {p : Params} (hp : p.wf = true) {st i o} :
    ({ State.reset with par := p, stream := st, inputs := i, obs := o} : State).DataOk where
  params := hp
  keyLength := rfl
  keyCapacity := Nat.zero_le _
  opivLength := rfl
  ibufLength := rfl
  ibufCapacity := Nat.zero_le _
  header := by simp [State.reset]
  packet := by simp [State.reset]
  result := by simp [State.reset]
  noResult := by simp [State.reset]
  headerBuffer := rfl

/-! ## The control state -/

theorem errorRows_hold (e : Err) :
    errorRows.any (fun row => row.1 == e.kind && row.2.1 == e.reason && (row.2.2 || e.info == 0)) = true := by
  cases e <;> simp [errorRows, Err.kind, Err.reason, Err.info]

theorem State.DataOk.inv_raise (h : s.DataOk) {e : Err} (he : e.info < 2 ^ s.par.descW) : (s.raise e).Inv :=
  { State.DataOk.raise h e with
    notBoth := rfl, errDone := fun _ => rfl, busyPhase := by simp
    report := by
      have := errorRows_hold e
      simp only [State.reportOk, State.raise_status, State.raise_errInfo, State.raise_par, State.raise_errKind, State.raise_errReason, if_true, this, he]
      simp
    waiting := by simp [State.WaitOk] }

theorem State.DataOk.inv_complete (h : s.DataOk) (h1 : s.status.err = false) (h2 : s.errKind = 0#4)
    (h3 : s.errReason = 0#4) (h4 : s.errInfo = 0) :
    s.complete.Inv :=
  { State.DataOk.complete h with
    notBoth := rfl, errDone := fun _ => rfl, busyPhase := by simp
    report := by simp [State.reportOk, h1, h2, h3, h4]
    waiting := by simp [State.WaitOk] }

theorem State.DataOk.inv_request (h : s.DataOk) (hb : s.status.busy = true) (hd : s.status.done = false)
    (h1 : s.status.err = false) (h2 : s.errKind = 0#4) (h3 : s.errReason = 0#4) (h4 : s.errInfo = 0) {r p} (hp : p ≠ .idle) (hw : (s.request r p).WaitOk) :
    (s.request r p).Inv :=
  { State.DataOk.request h r p with
    notBoth := by simp [hd], errDone := by simp [h1], busyPhase := by simp [hb, hp]
    report := by simp [State.reportOk, h1, h2, h3, h4]
    waiting := hw }

/-- R192: the control state from acceptance to the end of an operation's pseudocode. -/
structure State.Accepted (s : State) : Prop where
  busy : s.status.busy = true
  done : s.status.done = false
  err : s.status.err = false
  kind : s.errKind = 0#4
  reason : s.errReason = 0#4
  info : s.errInfo = 0

theorem two_pow_pos (p : Params) : (0:Nat) < 2 ^ p.descW := Nat.pow_pos (by decide)

theorem accepted_dataOk {o : Option Oper} (h : s.Inv) : (s.accept.setOper o).DataOk ∧ (s.accept.setOper o).Accepted :=
  ⟨(h.toDataOk.accept).setOper o, ⟨rfl, rfl, rfl, rfl, rfl, rfl⟩⟩

theorem Inv.pbuf_le (h : s.DataOk) (hp : s.status.pktValid = true) : s.pbuf.length ≤ 2^32-1 := by
  have := h.packet hp; have := (Params.wf_iff _).mp h.params; omega

theorem Inv.ibuf_le (h : s.DataOk) : s.ibuf.length ≤ 2^32-1 := by
  have := h.ibufCapacity; have := (Params.wf_iff _).mp h.params; omega

theorem Inv.busy_facts (h : s.Inv) (hb : s.status.busy = true) :
    s.status.done = false ∧ s.status.err = false ∧ s.errKind = 0#4 ∧ s.errReason = 0#4 ∧ s.errInfo = 0 := by
  have hdone : s.status.done = false := by have := h.notBoth; rw [hb] at this; simpa using this
  have herr : s.status.err = false := by
    by_contra hc; have := h.errDone (by simpa using hc); rw [hdone] at this; cases this
  have hrep := h.report
  simp [State.reportOk, herr] at hrep
  exact ⟨hdone, herr, hrep.1.1, hrep.1.2, hrep.2⟩

theorem out_phase (h : s.Inv) :
    (s.phase = .idle ∧ s.out = none) ∨ (s.phase = .hdrRead ∧ s.out = some (.src 40)) ∨ (∃ n, s.phase = .payRead ∧
      s.out = some (.src n)) ∨ (∃ k i c, s.phase = .ciphWait ∧ s.out = some (.ciph k i c) ∧
      c.length ≤ 2^32-1) ∨ (∃ d, s.phase = .dcmpWait ∧ s.out = some (.dcmp d)) := by
  have hw := h.waiting
  unfold State.WaitOk at hw
  split at hw <;> rename_i hp
  · exact .inl ⟨hp, hw.1⟩
  · exact .inr (.inl ⟨hp, hw.1⟩)
  · exact .inr (.inr (.inl ⟨_, hp, hw.1⟩))
  · rcases hw.2.2 with ⟨_,h1,_⟩ | ⟨_,h0,_,h1,_⟩
    · exact .inr (.inr (.inr (.inl ⟨_, _, _, hp, h1, Inv.ibuf_le h.toDataOk⟩)))
    · exact .inr (.inr (.inr (.inl ⟨_, _, _, hp, h1, Inv.pbuf_le h.toDataOk h0⟩)))
  · exact .inr (.inr (.inr (.inr ⟨_, hp, hw.2.2.2.2.2.2⟩)))

theorem Inv.idle {s : State} (h : s.Inv) (hb : s.status.busy = false) : s.phase = .idle := by
  by_contra hc; have := h.busyPhase.mpr hc; rw [hb] at this; cases this

theorem Inv.busy {s : State} (h : s.Inv) (hp : s.phase ≠ .idle) : s.status.busy = true := h.busyPhase.mpr hp

/-! ## The stages -/

theorem inv_finishWork (h : s.DataOk) (a : s.Accepted) (hw : s.wbuf.length ≤ 2^32-1) : s.finishWork.Inv := by
  rw [finishWork_eq]
  exact (h.commitResult hw).inv_complete a.err a.kind a.reason a.info

theorem inv_snappyStage (h : s.DataOk) (a : s.Accepted) (hr : s.status.resValid = false) (ho : s.oper = some .resolve)
    (hp : s.status.pktValid = true) (hs : isSnappy s.pkt.flags = true) (hc : isCompressed s.pkt.flags = false) :
    s.snappyStage.Inv := by
  unfold State.snappyStage
  split
  · exact h.inv_raise (two_pow_pos _)
  · rename_i hl
    exact h.inv_request a.busy a.done a.err a.kind a.reason a.info (by decide) (by simp [State.WaitOk, hr, ho, hp, hs, hc]; omega)

theorem inv_afterDecrypt (h : s.DataOk) (a : s.Accepted) (hr : s.status.resValid = false) (ho : s.oper = some .resolve)
    (hp : s.status.pktValid = true) (hw : s.wbuf.length ≤ 2^32-1) :
    s.afterDecrypt.Inv := by
  unfold State.afterDecrypt
  split
  · exact h.inv_raise (two_pow_pos _)
  · rename_i hc
    split
    · rename_i hs
      exact inv_snappyStage h a hr ho hp hs (by simpa using hc)
    · exact inv_finishWork h a hw

theorem inv_startDecrypt (h : s.DataOk) (a : s.Accepted) (hr : s.status.resValid = false) {iv : Bytes}
  (ho : (s.oper = some .decrypt ∧ iv = s.opiv ∧ s.wbuf = s.ibuf) ∨ (s.oper = some .resolve ∧ s.status.pktValid = true ∧ isEncrypted s.pkt.flags = true ∧ iv = s.pkt.iv ∧ s.wbuf = s.pbuf)) : (s.startDecrypt s.key iv).Inv := by
  unfold State.startDecrypt
  split
  · exact h.inv_raise (two_pow_pos _)
  · rename_i hk
    split
    · exact h.inv_raise (two_pow_pos _)
    · rename_i hl
      refine h.inv_request a.busy a.done a.err a.kind a.reason a.info (by decide) ?_
      rcases ho with ⟨o, rfl, hw⟩ | ⟨o, p, e, rfl, hw⟩
      · simp only [State.WaitOk, State.request_phase, State.request_status, State.request_key, State.request_oper, State.request_out, State.request_opiv, State.request_ibuf, State.request_pkt, State.request_pbuf]
        exact ⟨hr, by simpa using hk, .inl ⟨o, by rw [hw], by rw [← hw]; simpa using hl⟩⟩
      · simp only [State.WaitOk, State.request_phase, State.request_status, State.request_key, State.request_oper, State.request_out, State.request_opiv, State.request_ibuf, State.request_pkt, State.request_pbuf]
        exact ⟨hr, by simpa using hk, .inr ⟨o, p, e, by rw [hw], by rw [← hw]; simpa using hl⟩⟩

theorem inv_cipherAnswered (h : s.Inv) (hp : s.phase = .ciphWait) (d : Bytes) (hd : d.length ≤ 2^32-1) :
    (cipherAnswered d s).Inv := by
  have hb : s.status.busy = true := h.busyPhase.mpr (by rw [hp]; decide)
  obtain ⟨f1,f2,f3,f4,f5⟩ := Inv.busy_facts h hb
  have hw := h.waiting
  simp only [State.WaitOk, hp] at hw
  unfold cipherAnswered
  split
  · rename_i e hu
    exact (h.toDataOk.setWork _).inv_raise (by rw [(unpad_error hu).1]; exact two_pow_pos _)
  · rename_i u hu
    have hl := unpad_length hu
    split
    · rename_i hr
      simp only [State.resolving, beq_iff_eq] at hr
      have hpv : s.status.pktValid = true := by
        rcases hw.2.2 with ⟨h1,_⟩ | ⟨_,h1,_⟩
        · rw [h1] at hr; cases hr
        · exact h1
      exact inv_afterDecrypt ((h.toDataOk.setWork _).setWork _) ⟨hb,f1,f2,f3,f4,f5⟩ hw.1 hr hpv (by simp; omega)
    · exact inv_finishWork ((h.toDataOk.setWork _).setWork _) ⟨hb,f1,f2,f3,f4,f5⟩ (by simp; omega)

theorem inv_decompressorAnswered (h : s.Inv) (hp : s.phase = .dcmpWait) (a : DcmpAnswer) : (decompressorAnswered a s).Inv := by
  have hb : s.status.busy = true := h.busyPhase.mpr (by rw [hp]; decide)
  obtain ⟨f1,f2,f3,f4,f5⟩ := Inv.busy_facts h hb
  unfold decompressorAnswered
  split
  · exact h.toDataOk.inv_raise (Nat.mod_lt _ (two_pow_pos _))
  · split
    · exact h.toDataOk.inv_raise (two_pow_pos _)
    · rename_i o ho
      have := (Params.wf_iff _).mp h.params
      exact inv_finishWork (h.toDataOk.setWork _) ⟨hb,f1,f2,f3,f4,f5⟩ (by simp; omega)

theorem inv_sourceFailed (h : s.Inv) (d) : (sourceFailed d s).Inv := by
  unfold sourceFailed
  split
  · exact h.toDataOk.inv_raise (Nat.mod_lt _ (two_pow_pos _))
  · exact h.toDataOk.inv_raise (two_pow_pos _)

theorem inv_payloadArrived (h : s.Inv) (hp : s.phase = .payRead) (p : Bytes) (h1 : 1 ≤ p.length) (h2 : p.length ≤ s.par.maxPayload): (payloadArrived p s).Inv := by
  have hb : s.status.busy = true := h.busyPhase.mpr (by rw [hp]; decide)
  obtain ⟨f1,f2,f3,f4,f5⟩ := Inv.busy_facts h hb
  exact (h.toDataOk.commitPacket (headerFields_wf _ h.headerBuffer) h1 h2).inv_complete f2 f3 f4 f5

end Sys2Proof.Machine
end

