-- ==== Sys2Proof/Laws/Step.lean ====
section
/-! SUPPORT. What a step can be, and the step of each act that carries no code word. -/

open Sys2Proof

namespace Sys2Proof.Machine

variable {s : State}

variable {rest : List Input}

theorem step_cases {t : State} (h : step s = .next t) :
    (s.inputs = [] ∧ t = s) ∨ (∃ w, s.fetch = some w ∧ runWord w s.pastWord = .next t) ∨
    (∃ i rest, s.fetch = none ∧ s.inputs = i :: rest ∧ runInput i { s with inputs := rest } = .next t) := by
  unfold step stepInput at h
  split at h
  · rename_i w hw; exact .inr (.inl ⟨w, hw, h⟩)
  · rename_i hn
    split at h
    · rename_i hi; cases h; exact .inl ⟨hi, rfl⟩
    · rename_i i rest hi; exact .inr (.inr ⟨i, rest, hn, hi, h⟩)

theorem fetch_header {b} (hf : s.fetch = some (.header b)) :
    s.phase = .hdrRead ∧ s.out = some (.src 40) ∧ 40 ≤ s.stream.length ∧ b = s.stream.take 40 ∧ s.issued = none ∧
      ∃ rest, s.inputs = .srcOk :: rest := by
  unfold State.fetch at hf
  split at hf
  · simp only [Option.some.injEq, State.commandWord] at hf; split at hf <;> cases hf
  · rename_i hi
    unfold State.delivered at hf
    split at hf
    · rename_i rest hin
      split at hf
      · rename_i hc
        simp [State.awaitsHeader, Config.headerLen] at hc
        simp [Config.headerLen] at hf
        exact ⟨hc.1.1, hc.1.2, of_decide_eq_true hc.2, hf.symm, hi, rest, hin⟩
      · cases hf
    · cases hf

theorem fetch_command {s : State} {c} (h : s.fetch = some (.cmd c)) : (∃ rest, s.inputs = .write 0#8 [c] :: rest) ∨ c = 5#8 := by
  unfold State.fetch at h
  split at h
  · rename_i c' hc
    simp only [Option.some.injEq, State.commandWord] at h
    split at h <;> cases h
    unfold State.issued at hc
    split at hc
    · split at hc <;> cases hc; rename_i hi hr; left; rw [hi] at hr; exact ⟨_, hr⟩
    · split at hc <;> cases hc; exact .inr rfl
    · cases hc
  · cases hd : s.delivered <;> simp [hd] at h

theorem pastWord_status (s : State) : s.pastWord.status = s.status := by unfold State.pastWord; split <;> rfl

theorem pastWord_phase (s : State) : s.pastWord.phase = s.phase := by unfold State.pastWord; split <;> rfl

theorem step_without_word {i : Input} (h : s.inputs = i :: rest) (hf : s.fetch = none) :
    step s = runInput i { s with inputs := rest } := by
  unfold step stepInput; rw [hf]; simp [h]

theorem step_ciphAnswer (h : s.inputs = .ciphAnswer :: rest) : step s = answerCipher { s with inputs := rest } :=
  step_without_word h (by simp [State.fetch, State.issued, State.delivered, h])

theorem step_dcmpAnswer (h : s.inputs = .dcmpAnswer :: rest) : step s = answerDecompressor { s with inputs := rest } :=
  step_without_word h (by simp [State.fetch, State.issued, State.delivered, h])

theorem step_srcFail {d k} (h : s.inputs = .srcFail d k :: rest) : step s = answerSourceFail d k { s with inputs := rest } :=
  step_without_word h (by simp [State.fetch, State.issued, State.delivered, h])

theorem step_srcOk_noHeader (h : s.inputs = .srcOk :: rest) (hp : s.phase ≠ .hdrRead) :
    step s = answerSourceOk { s with inputs := rest } :=
  step_without_word h (by simp [State.fetch, State.issued, State.delivered, h, State.awaitsHeader, hp])

theorem step_read {n} (h : s.inputs = .read n :: rest) : step s = hostRead n { s with inputs := rest } :=
  step_without_word h (by simp [State.fetch, State.issued, State.delivered, h])

theorem step_memRead {sp a n} (h : s.inputs = .memRead sp a n :: rest) : step s = hostMemRead sp a n { s with inputs := rest } :=
  step_without_word h (by simp [State.fetch, State.issued, State.delivered, h])

theorem step_memWrite {sp a v} (h : s.inputs = .memWrite sp a v :: rest) :
    step s = hostMemWrite sp a v { s with inputs := rest } :=
  step_without_word h (by simp [State.fetch, State.issued, State.delivered, h])

theorem issued_write {r v} (h : s.inputs = .write r v :: rest) (hv : ¬ (r = 0#8 ∧ v.length = 1)) : s.issued = none := by
  unfold State.issued; rw [h]
  split
  · rename_i heq; simp at heq; obtain ⟨⟨rfl, rfl⟩, rfl⟩ := heq; rw [if_neg]; intro h0; exact hv ⟨h0, rfl⟩
  · simp_all
  · rfl

theorem step_write {r v} (h : s.inputs = .write r v :: rest) (hv : ¬ (r = 0#8 ∧ v.length = 1)) :
    step s = hostWrite r v { s with inputs := rest } :=
  step_without_word h (by unfold State.fetch; rw [issued_write h hv]; simp [State.delivered, h])

theorem step_command {c} (h : s.inputs = .write 0#8 [c] :: rest) :
    step s = runWord (s.commandWord c) { s with inputs := rest } := by
  simp [step, stepInput, State.fetch, State.issued, h, Reg.number, State.pastWord]

theorem step_srcOk_hdr {s : State} {rest} (h : s.inputs = .srcOk :: rest) (hp : s.phase = .hdrRead) (ho : s.out = some (.src 40)) (hl : 40 ≤ s.stream.length) :
    step s = runWord (.header (s.stream.take 40)) { s with inputs := rest, stream := s.stream.drop 40 } := by
  simp [step, stepInput, State.fetch, State.issued, h, State.delivered, State.awaitsHeader, hp, ho, Config.headerLen, hl, State.pastWord]

theorem step_srcOk_pay {s : State} {rest n} (h : s.inputs = .srcOk :: rest) (hp : s.phase = .payRead) (ho : s.out = some (.src n)) (hl : n ≤ s.stream.length) :
    step s = .next (payloadArrived (s.stream.take n) { s with inputs := rest, stream := s.stream.drop n }) := by
  simp [step, stepInput, State.fetch, State.issued, h, State.delivered, State.awaitsHeader, hp, ho, runInput, answerSourceOk, Nat.not_lt.mpr hl]

end Sys2Proof.Machine
end

