-- ==== Sys2Proof/Laws/Frames.lean ====
section
/-! SUPPORT. What a step can change, said once: a property that the named updates keep is kept by a whole step. Each frame then needs only the updates it forbids. -/

open Sys2Proof

namespace Sys2Proof.Machine

variable {s : State}

/-- Kept by the updates that write status, error report, PHASE, OUT, HBUF and the record. -/
structure KeptByControl (P : State → Prop) : Prop where
  accept : ∀ u, P u → P u.accept
  setOper : ∀ o u, P u → P (State.setOper o u)
  complete : ∀ u, P u → P u.complete
  raise : ∀ e u, P u → P (State.raise e u)
  request : ∀ r p u, P u → P (State.request r p u)
  setHeaderBuffer : ∀ b u, P u → P (State.setHeaderBuffer b u)

/-- Kept by the updates that write the result group and WBUF. -/
structure KeptByResult (P : State → Prop) : Prop where
  clearResult : ∀ u, P u → P u.clearResult
  commitResult : ∀ u, P u → P u.commitResult
  setWork : ∀ b u, P u → P (State.setWork b u)

/-- Kept by what is outside the block. -/
structure KeptByOutside (P : State → Prop) : Prop where
  out : ∀ u st i o, P u → P { u with stream := st, inputs := i, obs := o }

variable {P : State → Prop}

theorem kept_startDecrypt (c : KeptByControl P) {u : State} (h : P u) (k i) : P (u.startDecrypt k i) := by
  unfold State.startDecrypt
  split
  · exact c.raise _ _ h
  · split
    · exact c.raise _ _ h
    · exact c.request _ _ _ h

theorem kept_snappyStage (c : KeptByControl P) {u : State} (h : P u) : P u.snappyStage := by
  unfold State.snappyStage
  split
  · exact c.raise _ _ h
  · exact c.request _ _ _ h

theorem kept_finishWork (c : KeptByControl P) (r : KeptByResult P) {u : State} (h : P u) :
    P u.finishWork := c.complete _ (r.commitResult _ h)

theorem kept_afterDecrypt (c : KeptByControl P) (r : KeptByResult P) {u : State} (h : P u) : P u.afterDecrypt := by
  unfold State.afterDecrypt
  split
  · exact c.raise _ _ h
  · split
    · exact kept_snappyStage c h
    · exact kept_finishWork c r h

theorem kept_command (c : KeptByControl P) {o b} (hb : ∀ u, P u → P (b u)) {s t : State} (hs : P s)
    (h : s.command o b = .next t) :
    P t := by
  unfold State.command at h; split at h <;> cases h
  exact hb _ (c.setOper _ _ (c.accept _ hs))

theorem kept_secondLevel (c : KeptByControl P)
    (r : KeptByResult P) {k b} (hb : ∀ u, P u → P (b u)) {s t : State} (hs : P s) (h : s.secondLevel k b = .next t) :
    P t := by
  unfold State.secondLevel at h; split at h
  · cases h
  · refine kept_command c ?_ hs h
    intro u hu; split
    · exact hb _ (r.setWork _ _ (r.clearResult _ hu))
    · exact c.raise _ _ hu

theorem kept_exec (c : KeptByControl P) {i : Instr} (r : i ∉ [Instr.parse, .decode, .illegalOp0, .illegalOp6, .illegalOp7] → (∀ h, i ≠ .informHeader h) → KeptByResult P)
  (hp : i = .parse → (∀ u, P u → P u.clearHeader) ∧ ∀ f u, P u → P (State.commitHeader f u)) (hd : i = .decode → ∀ u, P u → P u.clearPacket)
  {s t : State} (hs : P s) (h : exec i s = .next t) : P t := by
  cases i <;> simp only [exec] at h
  case parse =>
    refine kept_command c ?_ hs h
    intro u hu
    unfold State.parseBody
    split
    · exact c.raise _ _ hu
    · split
      · exact c.raise _ _ ((hp rfl).1 _ hu)
      · exact c.complete _ ((hp rfl).2 _ _ ((hp rfl).1 _ hu))
  case decode => exact kept_command c (fun u hu => c.request _ _ _ (hd rfl _ hu)) hs h
  case decrypt =>
    have r := r (by simp) (by simp)
    exact kept_command c (fun u hu => kept_startDecrypt c (r.setWork _ _ (r.clearResult _ hu)) _ _) hs h
  case unpad =>
    have r := r (by simp) (by simp)
    refine kept_command c ?_ hs h
    intro u hu; unfold State.unpadBody; split
    · exact c.raise _ _ (r.setWork _ _ (r.clearResult _ hu))
    · exact kept_finishWork c r (r.setWork _ _ (r.setWork _ _ (r.clearResult _ hu)))
  case resolve =>
    have r := r (by simp) (by simp)
    refine kept_command c ?_ hs h
    intro u hu; unfold State.resolveBody; split
    · split
      · exact kept_startDecrypt c (r.setWork _ _ (r.clearResult _ hu)) _ _
      · exact kept_afterDecrypt c r (r.setWork _ _ (r.clearResult _ hu))
    · exact c.raise _ _ hu
  case informHeader f =>
    unfold execInformHeader at h; split at h <;> cases h
    unfold State.frameHeader
    have := c.setHeaderBuffer (encodeHeader f) _ hs
    split
    · exact c.raise _ _ this
    · split
      · exact c.raise _ _ this
      · exact c.request _ _ _ this
  case resolveF0 => have r := r (by simp) (by simp); exact kept_secondLevel c r (fun u hu => kept_finishWork c r hu) hs h
  case resolveF2 => have r := r (by simp) (by simp); exact kept_secondLevel c r (fun u hu => c.raise _ _ hu) hs h
  case resolveF6 => have r := r (by simp) (by simp); exact kept_secondLevel c r (fun u hu => c.raise _ _ hu) hs h
  case resolveF4 => have r := r (by simp) (by simp); exact kept_secondLevel c r (fun u hu => kept_snappyStage c hu) hs h
  case resolveF1 => have r := r (by simp) (by simp); exact kept_secondLevel c r (fun u hu => kept_startDecrypt c hu _ _) hs h
  case resolveF3 => have r := r (by simp) (by simp); exact kept_secondLevel c r (fun u hu => kept_startDecrypt c hu _ _) hs h
  case resolveF5 => have r := r (by simp) (by simp); exact kept_secondLevel c r (fun u hu => kept_startDecrypt c hu _ _) hs h
  case resolveF7 => have r := r (by simp) (by simp); exact kept_secondLevel c r (fun u hu => kept_startDecrypt c hu _ _) hs h
  all_goals exact kept_command c (fun u hu => c.raise _ _ hu) hs h

theorem kept_cipherAnswered (c : KeptByControl P) (r : KeptByResult P) {s : State} (d) (hs : P s) : P (cipherAnswered d s) := by
  unfold cipherAnswered; split
  · exact c.raise _ _ (r.setWork _ _ hs)
  · split
    · exact kept_afterDecrypt c r (r.setWork _ _ (r.setWork _ _ hs))
    · exact kept_finishWork c r (r.setWork _ _ (r.setWork _ _ hs))

theorem kept_decompressorAnswered (c : KeptByControl P) (r : KeptByResult P) {s : State} (d) (hs : P s) :
    P (decompressorAnswered d s) := by
  unfold decompressorAnswered; split
  · exact c.raise _ _ hs
  · split
    · exact c.raise _ _ hs
    · exact kept_finishWork c r (r.setWork _ _ hs)

theorem kept_sourceFailed (c : KeptByControl P) {s : State} (d) (hs : P s) : P (sourceFailed d s) := by
  unfold sourceFailed; split <;> exact c.raise _ _ hs

theorem kept_reject (c : KeptByControl P) {s t : State} {w} (hs : P s) (h : reject w s = .next t) : P t := by
  unfold reject at h; split at h
  · exact kept_command c (fun u hu => c.raise _ _ hu) hs h
  · exact kept_command c (fun u hu => c.raise _ _ hu) hs h
  · unfold rejectHeader at h; split at h <;> cases h
    exact c.raise _ _ (c.setHeaderBuffer _ _ hs)

theorem kept_runWord (c : KeptByControl P) (o : KeptByOutside P) {w} (r : KeptByResult P)
  (hp : w = .cmd 1#8 → (∀ u, P u → P u.clearHeader) ∧ ∀ f u, P u → P (State.commitHeader f u)) (hd : w = .cmd 2#8 → ∀ u, P u → P u.clearPacket)
  {s t : State} (hs : P s) (h : runWord w s.pastWord = .next t) : P t := by
  have hs' : P s.pastWord := by
    unfold State.pastWord; split
    · exact o.out s s.stream _ s.obs hs
    · exact o.out s _ _ s.obs hs
  unfold runWord at h; split at h
  · rename_i i hdec
    refine kept_exec c (fun _ _ => r) ?_ ?_ hs' h
    · rintro rfl; exact hp (word_of_parse hdec)
    · rintro rfl; exact hd (word_of_decode hdec)
  · exact kept_reject c hs' h

theorem kept_step (c : KeptByControl P) (o : KeptByOutside P) (r : KeptByResult P) {s t : State}
  (hp : (∃ rest, s.inputs = .write 0x00#8 [0x01#8] :: rest) → (∀ u, P u → P u.clearHeader) ∧ ∀ f u, P u → P (State.commitHeader f u)) (hd : (∃ rest, s.inputs = .write 0x00#8 [0x02#8] :: rest) → ∀ u, P u → P u.clearPacket)
  (hpay : s.phase = .payRead → ∀ f p u, P u → P (State.commitPacket f p u))
  (hwr : ∀ i rest, s.inputs = i :: rest → i.writesOperand = true → (∀ k u, P u → P (State.writeKey k u)) ∧ (∀ k u, P u → P (State.writeOpiv k u)) ∧ (∀ k u, P u → P (State.writeIbuf k u)) ∧ (∀ a k u, P u → P (State.patchIbuf a k u)))
  (hrs : ∀ k rest, s.inputs = .reset k :: rest → ∀ u, P u → P (State.applyReset k u))
  (hs : P s) (h : step s = .next t) : P t := by
  rcases step_cases h with ⟨_, rfl⟩ | ⟨w, hw, hr⟩ | ⟨i, rest, hn, hi, hr⟩
  · exact hs
  · refine kept_runWord c o r ?_ ?_ hs hr
    · rintro rfl; rcases fetch_command hw with h | h; exact hp h; cases h
    · rintro rfl; rcases fetch_command hw with h | h; exact hd h; cases h
  · have hu : P { s with inputs := rest } := o.out s s.stream rest s.obs hs
    have hup : s.phase = .payRead ↔ ({ s with inputs := rest } : State).phase = .payRead := Iff.rfl
    rw [hup] at hpay
    have hrs := fun k => hrs k rest
    generalize ({ s with inputs := rest } : State) = u at *
    cases i <;> simp only [runInput] at hr
    case write reg v =>
      unfold hostWrite State.writeReg at hr
      split at hr
      · cases hr
      · split at hr
        · cases hr
        · rename_i rg hrg
          have hwv : rg ≠ .cmd → (Input.write reg v).writesOperand = true := by
            intro hne; simp only [Input.writesOperand, bne_iff_ne]; rintro rfl
            have : Reg.ofNumber 0#8 = some .cmd := by decide
            rw [this] at hrg; cases hrg; exact hne rfl
          split at hr <;> try cases hr
          all_goals
            have hwv := hwr _ _ hi (hwv (by decide))
            split at hr <;> cases hr
          · exact hwv.1 _ _ hu
          · exact hwv.2.1 _ _ hu
          · exact hwv.2.2.1 _ _ hu
    case read reg =>
      unfold hostRead at hr
      split at hr
      · cases hr
      · split at hr <;> cases hr; exact o.out u u.stream u.inputs _ hu
    case memRead =>
      unfold hostMemRead at hr
      split at hr
      · cases hr
      · split at hr
        · cases hr
        · split at hr <;> cases hr; exact o.out u u.stream u.inputs _ hu
    case memWrite sp a v =>
      unfold hostMemWrite at hr
      split at hr
      · cases hr
      · split at hr <;> try cases hr
        split at hr <;> cases hr
        exact (hwr _ _ hi rfl).2.2.2 _ _ _ hu
    case inspectResolve =>
      unfold inspectIdle at hr
      split at hr <;> cases hr; exact hu
    case reset k => cases hr; exact hrs k hi u hu
    case arrive => cases hr; exact o.out u _ u.inputs u.obs hu
    case srcOk =>
      unfold answerSourceOk at hr
      split at hr <;> try cases hr
      split at hr
      · cases hr
      · split at hr <;> cases hr
        rename_i hp
        exact c.complete _ (hpay hp _ _ _ (o.out u _ u.inputs u.obs hu))
    case srcFail d k =>
      unfold answerSourceFail at hr
      split at hr <;> try cases hr
      exact kept_sourceFailed c _ (o.out u _ u.inputs u.obs hu)
    case ciphAnswer =>
      unfold answerCipher at hr
      split at hr <;> try cases hr
      exact kept_cipherAnswered c r _ hu
    case dcmpAnswer =>
      unfold answerDecompressor at hr
      split at hr <;> try cases hr
      exact kept_decompressorAnswered c r _ hu

/-! ## The groups -/

theorem sameOperands_control (s : State) :
    KeptByControl (SameOperands s) := ⟨fun _ h => {h with}, fun _ _ h => {h with}, fun _ h => {h with}, fun _ _ h => {h with}, fun _ _ _ h => {h with}, fun _ _ h => {h with}⟩

theorem sameHeader_control (s : State) :
    KeptByControl (SameHeader s) := ⟨fun _ h => {h with}, fun _ _ h => {h with}, fun _ h => {h with}, fun _ _ h => {h with}, fun _ _ _ h => {h with}, fun _ _ h => {h with}⟩

theorem samePacket_control (s : State) :
    KeptByControl (SamePacket s) := ⟨fun _ h => {h with}, fun _ _ h => {h with}, fun _ h => {h with}, fun _ _ h => {h with}, fun _ _ _ h => {h with}, fun _ _ h => {h with}⟩

theorem sameResult_control (s : State) :
    KeptByControl (SameResult s) := ⟨fun _ h => {h with}, fun _ _ h => {h with}, fun _ h => {h with}, fun _ _ h => {h with}, fun _ _ _ h => {h with}, fun _ _ h => {h with}⟩

theorem sameOperands_result (s : State) :
    KeptByResult (SameOperands s) := ⟨fun _ h => {h with}, fun _ h => {h with}, fun _ _ h => {h with}⟩

theorem sameHeader_result (s : State) :
    KeptByResult (SameHeader s) := ⟨fun _ h => {h with}, fun _ h => {h with}, fun _ _ h => {h with}⟩

theorem samePacket_result (s : State) :
    KeptByResult (SamePacket s) := ⟨fun _ h => {h with}, fun _ h => {h with}, fun _ _ h => {h with}⟩

end Sys2Proof.Machine
end

