-- ==== Sys2Proof/Laws/HostScript.lean ====
section
/-! SUPPORT. When a run has ended, and what its result counts (R199). -/

open Sys2Proof

namespace Sys2Proof.Machine

variable {s t : State}

theorem State.runEnded_iff : s.runEnded = true ↔ s.inputs = [] ∧ s.status.busy = false ∧ s.out = none := by
  simp [State.runEnded, and_assoc]

theorem State.runResult_of_running (h : s.runEnded = false) : s.runResult = none := by simp [State.runResult, h]

theorem State.runEnded_of_busy (h : s.status.busy = true) : s.runEnded = false := by simp [State.runEnded, h]

/-- R199: the source's count depends on the record alone. -/
theorem State.bytesAsked_of_obs (h : t.obs = s.obs) : t.bytesAsked = s.bytesAsked := by simp [State.bytesAsked, h]

theorem State.bytesAsked_of_observed {o : Obs} (h : t.obs = o :: s.obs) : t.bytesAsked = s.bytesAsked + o.bytesAsked := by
  simp [State.bytesAsked, h, Nat.add_comm]

@[simp] theorem State.bytesAsked_request (r : Request) (p : Phase) :
    (s.request r p).bytesAsked = s.bytesAsked + Obs.bytesAsked (.request r) := State.bytesAsked_of_observed rfl

end Sys2Proof.Machine
end

