-- ==== Sys2Proof/Laws/PerInstr.lean ====
section
/-! SUPPORT. The family WordShape: what the code word of each instruction looks like, constructor by
constructor (R90, R97, R101). -/

namespace Sys2Proof

/-- The shape of a code word: a command's reserved bits `CMD[7:3]` are 0 (R97); the flags word's class its
three flags (R101); a header is 40 bytes that begin with the magic (R90, R105). -/
def Laws.WordShape.Holds (i : Instr) : CodeWord → Prop
  | .cmd c => c.extractLsb' 3 5 = 0#5
  | .flags f => decodeFlags f = i
  | .header b => b.length = 40 ∧ magicMatches b = true

/-- The code word of a well-formed instruction has the shape of its format. -/
def Laws.WordShape.Statement (i : Instr) : Prop :=
  i.wf = true → Laws.WordShape.Holds i (encode i)

theorem Laws.WordShape.parse : Laws.WordShape.Statement .parse := fun _ => rfl

theorem Laws.WordShape.decode : Laws.WordShape.Statement .decode := fun _ => rfl

theorem Laws.WordShape.decrypt : Laws.WordShape.Statement .decrypt := fun _ => rfl

theorem Laws.WordShape.unpad : Laws.WordShape.Statement .unpad := fun _ => rfl

theorem Laws.WordShape.resolve : Laws.WordShape.Statement .resolve := fun _ => rfl

theorem Laws.WordShape.illegalOp0 : Laws.WordShape.Statement .illegalOp0 := fun _ => rfl

theorem Laws.WordShape.illegalOp6 : Laws.WordShape.Statement .illegalOp6 := fun _ => rfl

theorem Laws.WordShape.illegalOp7 : Laws.WordShape.Statement .illegalOp7 := fun _ => rfl

theorem Laws.WordShape.resolveF0 (rest : BitVec 16) : Laws.WordShape.Statement (.resolveF0 rest) :=
  fun hw => decodeFlags_encodeFlags0 hw

theorem Laws.WordShape.resolveF1 (rest : BitVec 16) : Laws.WordShape.Statement (.resolveF1 rest) :=
  fun hw => decodeFlags_encodeFlags1 hw

theorem Laws.WordShape.resolveF2 (rest : BitVec 16) : Laws.WordShape.Statement (.resolveF2 rest) :=
  fun hw => decodeFlags_encodeFlags2 hw

theorem Laws.WordShape.resolveF3 (rest : BitVec 16) : Laws.WordShape.Statement (.resolveF3 rest) :=
  fun hw => decodeFlags_encodeFlags3 hw

theorem Laws.WordShape.resolveF4 (rest : BitVec 16) : Laws.WordShape.Statement (.resolveF4 rest) :=
  fun hw => decodeFlags_encodeFlags4 hw

theorem Laws.WordShape.resolveF5 (rest : BitVec 16) : Laws.WordShape.Statement (.resolveF5 rest) :=
  fun hw => decodeFlags_encodeFlags5 hw

theorem Laws.WordShape.resolveF6 (rest : BitVec 16) : Laws.WordShape.Statement (.resolveF6 rest) :=
  fun hw => decodeFlags_encodeFlags6 hw

theorem Laws.WordShape.resolveF7 (rest : BitVec 16) : Laws.WordShape.Statement (.resolveF7 rest) :=
  fun hw => decodeFlags_encodeFlags7 hw

theorem Laws.WordShape.informHeader (h : Header) : Laws.WordShape.Statement (.informHeader h) :=
  fun hw => ⟨encodeHeader_length h hw, magicMatches_encodeHeader h⟩

end Sys2Proof
end

