-- ==== Sys2Proof/Tests/Slice0.lean ====
section
/-! SUPPORT. The model's own tests: ill-formed terms, code words written out from the encodings, one step each
from the vectors of 95_test_vectors.md, and for each statement with hypotheses a state that meets them. -/

open Sys2Proof Sys2Proof.Machine

namespace Sys2Proof.Tests

/-! ## The named byte strings of 95_test_vectors.md -/

/-- Bytes 4 to 39 of `H0`. -/
def tail0 : Bytes :=
  [0x00#8, 0x00#8, 0x00#8, 0x01#8, 0x00#8, 0x11#8, 0x22#8, 0x33#8, 0x44#8, 0x55#8, 0x00#8, 0x00#8] ++ List.replicate 16 0x00#8 ++
    [0x00#8, 0x00#8, 0x00#8, 0x02#8, 0x00#8, 0x00#8, 0x00#8, 0x05#8]

/-- `H0` -/
def h0 : Bytes := [0x55#8, 0x42#8, 0x4E#8, 0x54#8] ++ tail0

/-- The fields of `H0`, read off the vector. -/
def fields0 : Header :=
  { pver := 1#32, devid := [0x00#8, 0x11#8, 0x22#8, 0x33#8, 0x44#8, 0x55#8], flags := 0#16, iv := List.replicate 16 0x00#8, plver := 2#32,
    plen := 5#32 }

/-- `HELLO` -/
def hello : Bytes := [0x68#8, 0x65#8, 0x6C#8, 0x6C#8, 0x6F#8]

/-- `P16` -/
def p16 : Bytes := hello ++ List.replicate 11 0x0B#8

/-- `K16` -/
def k16 : Bytes := [0#8, 1#8, 2#8, 3#8, 4#8, 5#8, 6#8, 7#8, 8#8, 9#8, 10#8, 11#8, 12#8, 13#8, 14#8, 15#8]

/-- `T10` -/
def t10 : Bytes := [0xF0#8, 0xF1#8, 0xF2#8, 0xF3#8, 0xF4#8, 0xF5#8, 0xF6#8, 0xF7#8, 0xF8#8, 0xF9#8]

/-- The payload of V46: `05 68 65 6C 6C 6F` and `T10`. -/
def packed : Bytes := 0x05#8 :: hello ++ t10

/-! ## States -/

/-- After reset, with these acts to come. -/
def fresh (i : List Input) : State := { State.reset with inputs := i }

/-- After reset and `HWR(IBUF, b)`. -/
def loaded (b : Bytes) : State := State.reset.writeIbuf b

/-- After a successful DECODE of a packet with these flags and this payload, and `HWR(KEY, key)`. -/
def held (flags : BitVec 16) (payload key : Bytes) : State :=
  { State.reset.writeKey key with
    status := { busy := false, done := true, err := false, hdrValid := false, pktValid := true, resValid := false }
    pkt := { pver := 1#32, plver := 2#32, devid := [0x00#8, 0x11#8, 0x22#8, 0x33#8, 0x44#8, 0x55#8], flags := flags,
             iv := List.replicate 16 0x00#8, plen := BitVec.ofNat 32 payload.length }
    pbuf := payload }

/-- A state with another MAX_RESULT or MAX_PAYLOAD. -/
def capped (maxPayload maxResult : Nat) (s : State) : State :=
  { s with par := { s.par with maxPayload := maxPayload, maxResult := maxResult } }

/-- BUSY = 1 and nothing else. -/
def busyOnly : Status := { busy := true, done := false, err := false, hdrValid := false, pktValid := false, resValid := false }

/-- After a successful RESOLVE of `P16` to `HELLO`. -/
def heldWithResult (i : List Input) : State :=
  { held 1#16 p16 k16 with
    status := { busy := false, done := true, err := false, hdrValid := false, pktValid := true, resValid := true }
    rbuf := hello, rlen := 5#32, inputs := i }

/-- A DECODE awaits its header. -/
def waitHeader (stream : Bytes) (i : List Input) : State :=
  { State.reset with status := busyOnly, phase := .hdrRead, oper := some .decode, out := some (.src 40), stream := stream, inputs := i }

/-- A DECODE awaits the payload of `H0`. -/
def waitPayload (stream : Bytes) (i : List Input) : State :=
  { State.reset with
    status := busyOnly, phase := .payRead, oper := some .decode, out := some (.src 5), hbuf := h0, stream := stream, inputs := i }

/-- A DECRYPT of `P16` awaits the cipher. -/
def waitCipher (i : List Input) : State :=
  { (loaded p16).writeKey k16 with
    status := busyOnly, phase := .ciphWait, oper := some .decrypt, out := some (.ciph k16 (List.replicate 16 0x00#8) p16), wbuf := p16,
    inputs := i }

/-- A RESOLVE of an encrypted packet awaits the cipher. -/
def waitCipherOf (flags : BitVec 16) (payload : Bytes) (i : List Input) : State :=
  { held flags payload k16 with
    status := { busyOnly with pktValid := true }, phase := .ciphWait, oper := some .resolve,
    out := some (.ciph k16 (List.replicate 16 0x00#8) payload), wbuf := payload, inputs := i }

/-- A RESOLVE of a packet with flags 0x0004 awaits the decompressor. -/
def waitDecompressor (payload : Bytes) (i : List Input) : State :=
  { held 0x0004#16 payload [] with
    status := { busyOnly with pktValid := true }, phase := .dcmpWait, oper := some .resolve,
    out := some (.dcmp (payload.take (payload.length - 10))), wbuf := payload, inputs := i }

/-- What is asked of the state an outcome gives. -/
def after {α : Type} (o : Host.Outcome State Fault Refusal) (f : State → α) : Option α :=
  match o with
  | .next t => some (f t)
  | .fault _ => none
  | .refused _ => none

/-- `STATUS`, `ERR_KIND`, `ERR_REASON`, `ERR_INFO`: the outcome as a host reads it. -/
def report (t : State) : Nat × Nat × Nat × Nat :=
  (t.status.word.toNat, t.errKind.toNat, t.errReason.toNat, t.errInfo)

/-! ## WellFormed -/

theorem test_wf_short_devid : Instr.wf (.informHeader { fields0 with devid := [1#8, 2#8, 3#8, 4#8, 5#8] }) = false := by decide

theorem test_wf_long_iv : Instr.wf (.informHeader { fields0 with iv := List.replicate 17 0#8 }) = false := by decide

/-- R94: a bit of the three defined flags has no place beside them. -/
theorem test_wf_defined_bit :
    Instr.wf (.resolveF0 0x0001#16) = false ∧ Instr.wf (.resolveF3 0x0002#16) = false ∧ Instr.wf (.resolveF7 0x8004#16) = false ∧
    Instr.wf (.resolveF7 0xFFF8#16) = true := by decide

theorem test_wf_header : Instr.wf (.informHeader fields0) = true := by decide

/-! ## Code words, from the encodings of 30_encoding.md -/

theorem test_decode_parse : decode (.cmd 0b00000001#8) = .ok .parse := by decide

theorem test_decode_decode : decode (.cmd 0b00000010#8) = .ok .decode := by decide

theorem test_decode_decrypt : decode (.cmd 0b00000011#8) = .ok .decrypt := by decide

theorem test_decode_unpad : decode (.cmd 0b00000100#8) = .ok .unpad := by decide

theorem test_decode_resolve : decode (.cmd 0b00000101#8) = .ok .resolve := by decide

theorem test_decode_illegalOp0 : decode (.cmd 0b00000000#8) = .ok .illegalOp0 := by decide

theorem test_decode_illegalOp6 : decode (.cmd 0b00000110#8) = .ok .illegalOp6 := by decide

theorem test_decode_illegalOp7 : decode (.cmd 0b00000111#8) = .ok .illegalOp7 := by decide

/-- V61: a legal OP under nonzero reserved bits. -/
theorem test_decode_reserved : decode (.cmd 0x09#8) = .error (.reservedBits 0x09#8) ∧ decode (.cmd 0x81#8) = .error (.reservedBits 0x81#8) := by
  decide

theorem test_decode_resolveF0 : decode (.flags 0b1111111111111000#16) = .ok (.resolveF0 0b1111111111111000#16) := by decide

theorem test_decode_resolveF1 : decode (.flags 0b0000000000000001#16) = .ok (.resolveF1 0#16) := by decide

theorem test_decode_resolveF2 : decode (.flags 0b0000000000000010#16) = .ok (.resolveF2 0#16) := by decide

theorem test_decode_resolveF3 : decode (.flags 0b0000000000001011#16) = .ok (.resolveF3 0b0000000000001000#16) := by decide

theorem test_decode_resolveF4 : decode (.flags 0b1000000000000100#16) = .ok (.resolveF4 0b1000000000000000#16) := by decide

theorem test_decode_resolveF5 : decode (.flags 0b0000000000000101#16) = .ok (.resolveF5 0#16) := by decide

theorem test_decode_resolveF6 : decode (.flags 0b0000000000000110#16) = .ok (.resolveF6 0#16) := by decide

theorem test_decode_resolveF7 : decode (.flags 0b0000000000000111#16) = .ok (.resolveF7 0#16) := by decide

/-- R120's example. -/
theorem test_decode_header : decode (.header h0) = .ok (.informHeader fields0) := by decide

/-- V3 and V6: "ubnt", and 39 bytes. -/
theorem test_decode_header_rejected :
    decode (.header ([0x75#8, 0x62#8, 0x6E#8, 0x74#8] ++ tail0)) = .error (.badMagic [0x75#8, 0x62#8, 0x6E#8, 0x74#8]) ∧
    decode (.header (h0.take 39)) = .error (.headerLength 39) := by decide

/-- R90: `H0` as the 320-bit number, byte 0 in `H[319:312]`. -/
theorem test_decodeTableWord_header :
    decodeTableWord 320 0x55424E54000000010011223344550000000000000000000000000000000000000000000200000005 = some (.informHeader fields0) := by
  decide

theorem test_decodeTableWord_flags : decodeTableWord 16 0x8004 = some (.resolveF4 0b1000000000000000#16) ∧ decodeTableWord 8 0x09 = none := by
  decide

/-! ## One step each -/

/-- V1 -/
theorem test_parse_V1 : after (exec .parse (loaded h0)) (fun t => (report t, t.hf)) = some ((0x0A, 0, 0, 0), fields0) := by decide

/-- V4 -/
theorem test_parse_V4 :
    after (exec .parse (loaded ([0x55#8, 0x42#8, 0x4E#8, 0x55#8] ++ tail0))) report = some (0x06, 1, 0, 0) := by decide

/-- V23, first half: the request is made and BUSY alone is 1. -/
theorem test_decode_request : after (exec .decode State.reset) (fun t => (t.status.word, t.out)) = some (0x01#8, some (.src 40)) := by
  decide

/-- V20, first half. -/
theorem test_informHeader_V20 : after (step (waitHeader (h0 ++ hello) [.srcOk])) (fun t => (t.out, t.stream)) = some (some (.src 5), hello) := by
  decide

/-- V30: MAX_PAYLOAD = 8 and a declared length of 9. -/
theorem test_informHeader_V30 :
    after (exec (.informHeader { fields0 with plen := 9#32 }) (capped 8 8 (waitHeader [] []))) report = some (0x06, 15, 4, 0) := by decide

/-- V20, second half. -/
theorem test_payload_V20 :
    after (step (waitPayload hello [.srcOk])) (fun t => (report t, t.pkt.plver, t.pkt.devid, t.pkt.plen, t.pbuf)) =
      some ((0x12, 0, 0, 0), 2#32, [0x00#8, 0x11#8, 0x22#8, 0x33#8, 0x44#8, 0x55#8], 5#32, hello) := by decide

/-- V25 -/
theorem test_magic_V25 :
    after (step (waitHeader ([0x55#8, 0x42#8, 0x4E#8, 0x58#8] ++ tail0 ++ hello) [.srcOk])) (fun t => (report t, t.stream)) =
      some ((0x06, 1, 0, 0), hello) := by decide

/-- V24c and V28: the description of a header read is dropped, that of a payload read is kept. -/
theorem test_source_fails :
    after (step (waitHeader (h0.take 39) [.srcFail 0xE0F 0])) report = some (0x06, 2, 1, 0) ∧
    after (step (waitPayload [] [.srcFail 0xE0F 0])) report = some (0x06, 2, 3, 0xE0F) := by decide

/-- V12: the result may be empty and is valid. -/
theorem test_unpad_V12 : after (exec .unpad (loaded [0x01#8])) (fun t => (report t, t.rbuf, t.rlen)) = some ((0x22, 0, 0, 0), [], 0#32) := by
  decide

/-- V19d: the mismatch is the second byte from the end. -/
theorem test_unpad_V19d :
    after (exec .unpad (loaded (hello ++ List.replicate 10 0x0B#8 ++ [0x0A#8, 0x0B#8]))) report = some (0x06, 4, 3, 0) := by decide

/-- V32: the request carries KEY, OPIV and IBUF; the answer `P16` gives `HELLO`. -/
theorem test_decrypt_V32 :
    after (exec .decrypt ((loaded p16).writeKey k16)) (fun t => t.out) = some (some (.ciph k16 (List.replicate 16 0#8) p16)) ∧
    report (cipherAnswered p16 (waitCipher [])) = (0x22, 0, 0, 0) ∧ (cipherAnswered p16 (waitCipher [])).rbuf = hello := by decide

/-- V35: the key is checked first. -/
theorem test_decrypt_V35 :
    after (exec .decrypt ((loaded (p16 ++ [0x00#8])).writeKey (List.replicate 15 0#8))) report = some (0x06, 3, 0, 0) := by decide

/-- V40 -/
theorem test_resolve_V40 : after (exec .resolve (held 0#16 hello [])) (fun t => (report t, t.rbuf, t.obs)) = some ((0x32, 0, 0, 0), hello, []) := by
  decide

/-- V57 -/
theorem test_resolve_V57 : after (exec .resolve State.reset) report = some (0x06, 15, 3, 0) := by decide

/-- V55: bits 15:3 are ignored. -/
theorem test_resolveF0_V55 :
    after (exec (.resolveF0 0xFFF8#16) (held 0xFFF8#16 hello [])) (fun t => (report t, t.rbuf)) = some ((0x32, 0, 0, 0), hello) := by decide

/-- V41 and V42b -/
theorem test_resolveF1_V41 :
    after (exec (.resolveF1 0#16) (held 1#16 p16 k16)) (fun t => t.out) = some (some (.ciph k16 (List.replicate 16 0#8) p16)) ∧
    after (exec (.resolveF1 0#16) (held 1#16 hello k16)) report = some (0x16, 4, 2, 0) := by decide

/-- V43 -/
theorem test_resolveF2_V43 : after (exec (.resolveF2 0#16) (held 2#16 hello [])) report = some (0x16, 5, 1, 0) := by decide

/-- V44: not UnsupportedFlag. -/
theorem test_resolveF3_V44 : after (exec (.resolveF3 0#16) (held 3#16 p16 (List.replicate 15 0#8))) report = some (0x16, 3, 0, 0) := by decide

/-- V45: after the cipher's answer. -/
theorem test_resolveF3_V45 : report (cipherAnswered p16 (waitCipherOf 3#16 p16 [])) = (0x16, 5, 1, 0) := by decide

/-- V46: the ten trailer bytes are dropped; the answer is the result. -/
theorem test_resolveF4_V46 :
    after (exec (.resolveF4 0#16) (held 4#16 packed [])) (fun t => t.out) = some (some (.dcmp (0x05#8 :: hello))) ∧
    report (decompressorAnswered (.ok hello) (waitDecompressor packed [])) = (0x32, 0, 0, 0) ∧
    (decompressorAnswered (.ok hello) (waitDecompressor packed [])).rbuf = hello := by decide

/-- V47b: nine bytes. -/
theorem test_resolveF4_V47b :
    after (exec (.resolveF4 0#16) (held 4#16 [0x31#8, 0x32#8, 0x33#8, 0x34#8, 0x35#8, 0x36#8, 0x37#8, 0x38#8, 0x39#8] [])) report =
      some (0x16, 6, 2, 0) := by decide

/-- V50: the plaintext, less its trailer, goes to the decompressor. -/
theorem test_resolveF5_V50 :
    (cipherAnswered (packed ++ List.replicate 16 0x10#8) (waitCipherOf 5#16 (packed ++ List.replicate 16 0x10#8) [])).out =
      some (.dcmp (0x05#8 :: hello)) := by decide

/-- V51: the ten bytes are counted after the padding is removed. -/
theorem test_resolveF5_V51 :
    report (cipherAnswered (0x05#8 :: hello ++ List.replicate 10 0x0A#8) (waitCipherOf 5#16 (0x05#8 :: hello ++ List.replicate 10 0x0A#8) [])) =
      (0x16, 6, 2, 0) := by decide

/-- V53 -/
theorem test_resolveF6_V53 : after (exec (.resolveF6 0#16) (held 6#16 packed [])) (fun t => (report t, t.obs)) = some ((0x16, 5, 1, 0), []) := by
  decide

/-- V54b and V54 -/
theorem test_resolveF7_V54 :
    after (exec (.resolveF7 0#16) (held 7#16 (packed ++ List.replicate 16 0x10#8) [])) report = some (0x16, 3, 0, 0) ∧
    report (cipherAnswered (packed ++ List.replicate 16 0x10#8) (waitCipherOf 7#16 (packed ++ List.replicate 16 0x10#8) [])) =
      (0x16, 5, 1, 0) := by decide

/-- V48b and V49: an empty success and a failure are told apart. -/
theorem test_decompressor_empty_or_failed :
    report (decompressorAnswered (.ok []) (waitDecompressor (0x00#8 :: t10) [])) = (0x32, 0, 0, 0) ∧
    report (decompressorAnswered (.fail 0xDEAD) (waitDecompressor packed [])) = (0x16, 6, 1, 0xDEAD) := by decide

/-- V56 and V56b: MAX_RESULT = 4. -/
theorem test_decompressor_V56 :
    report (decompressorAnswered (.ok hello) (capped 4 4 (waitDecompressor packed []))) = (0x16, 15, 4, 0) ∧
    report (decompressorAnswered (.ok (hello.take 4)) (capped 4 4 (waitDecompressor packed []))) = (0x32, 0, 0, 0) := by decide

/-- V61: the header stays valid. -/
theorem test_illegal_V61 :
    after (step { loaded h0 with
      status := { busy := false, done := true, err := false, hdrValid := true, pktValid := false, resValid := false }
      inputs := [.write 0x00#8 [0x81#8]] }) report = some (0x0E, 15, 1, 0) := by decide

theorem test_illegal_operations :
    after (exec .illegalOp0 State.reset) report = some (0x06, 15, 1, 0) ∧ after (exec .illegalOp6 State.reset) report = some (0x06, 15, 1, 0) ∧
    after (exec .illegalOp7 State.reset) report = some (0x06, 15, 1, 0) := by decide

/-- V64: STATUS reads 0x01 while a DECODE waits, ILEN does not read, IBUF does not write, reset gives 0x00. -/
theorem test_busy_V64 :
    after (step (waitHeader [] [.read 0x01#8])) (fun t => t.obs) = some [.read 0x01#8 (.num 1)] ∧
    after (step (waitHeader [] [.read 0x0B#8])) report = none ∧ after (step (waitHeader [] [.write 0x0C#8 hello])) report = none ∧
    after (step (waitHeader [] [.reset 0])) report = some (0x00, 0, 0, 0) := by decide

/-- R251: the three bytes the source took for the abandoned header read do not come again; an idle block has read nothing. -/
theorem test_reset_stream :
    after (step (waitHeader h0 [.reset 3])) (fun t => (t.stream, t.out)) = some (h0.drop 3, none) ∧
    after (step { fresh [.reset 3] with stream := h0 }) (fun t => t.stream) = some h0 := by decide

/-- R199: V20's run asks for 45 bytes in two requests; a wait with nothing queued is no end. -/
theorem test_run_result :
    after (step { waitPayload hello [.srcOk] with obs := [.request (.src 5), .request (.src 40)] }) State.runResult =
      some (some { values := [], requests := [.src 40, .src 5], bytesAsked := 45 }) ∧
    (waitPayload hello []).runResult = none ∧ (fresh [.read 0x01#8]).runResult = none := by decide

/-- R103: INSPECT is a DECODE, and a RESOLVE that waits for its outcome; R102: IBUF and PARSE. -/
theorem test_script_acts :
    (State.reset.queueScript [.ibuf hello, .parse, .inspect [.srcOk, .srcOk] [.ciphAnswer], .expect .rbuf]).inputs =
      [.write 0x0C#8 hello, .write 0x00#8 [0x01#8], .write 0x00#8 [0x02#8], .srcOk, .srcOk, .inspectResolve, .ciphAnswer, .read 0x21#8] := by
  decide

/-! ## Witnesses: for each statement with hypotheses, a state and operands that meet them -/

/-- The invariant from checks that a concrete state decides. -/
theorem inv_of_checks {s : State}
    (h : s.par.wf = true ∧ s.klen.toNat = s.key.length ∧ s.key.length ≤ s.par.keyMax ∧ s.opiv.length = 16 ∧ s.ilen.toNat = s.ibuf.length ∧
      s.ibuf.length ≤ s.par.maxOperand ∧ (s.status.hdrValid = true → s.hfMagic = Config.magic ∧ s.hf.wf = true) ∧
      (s.status.pktValid = true → s.pkt.plen.toNat = s.pbuf.length ∧ 1 ≤ s.pbuf.length ∧ s.pbuf.length ≤ s.par.maxPayload ∧
        s.pkt.devid.length = 6 ∧ s.pkt.iv.length = 16) ∧
      (s.status.resValid = true → s.rlen.toNat = s.rbuf.length) ∧ (s.status.resValid = false → s.rlen = 0#32) ∧ s.hbuf.length = 40)
    (c : (s.status.busy && s.status.done) = false ∧ (s.status.err = true → s.status.done = true) ∧
      (s.status.busy = true ↔ s.phase ≠ .idle) ∧ s.reportOk = true)
    (w : s.WaitOk) : s.Inv := by
  obtain ⟨h1, h2, h3, h4, h5, h6, h7, h8, h9, h10, h11⟩ := h
  obtain ⟨c1, c2, c3, c4⟩ := c
  exact { params := h1, keyLength := h2, keyCapacity := h3, opivLength := h4, ibufLength := h5, ibufCapacity := h6, header := h7,
          packet := h8, result := h9, noResult := h10, headerBuffer := h11, notBoth := c1, errDone := c2, busyPhase := c3, report := c4,
          waiting := w }

theorem inv_fresh (i : List Input) : (fresh i).Inv :=
  { inv_of_checks (s := State.reset) (by decide) (by decide) ⟨rfl, rfl⟩ with }

theorem inv_loaded (i : List Input) : ({ loaded p16 with inputs := i } : State).Inv :=
  { inv_of_checks (s := loaded p16) (by decide) (by decide) ⟨rfl, rfl⟩ with }

theorem inv_held (i : List Input) : ({ held 0x0003#16 p16 k16 with inputs := i } : State).Inv :=
  { inv_of_checks (s := held 0x0003#16 p16 k16) (by decide) (by decide) ⟨rfl, rfl⟩ with }

theorem inv_waitHeader (st : Bytes) (i : List Input) : (waitHeader st i).Inv :=
  { inv_of_checks (s := waitHeader [] []) (by decide) (by decide) ⟨rfl, rfl, rfl⟩ with }

theorem inv_waitPayload (st : Bytes) (i : List Input) : (waitPayload st i).Inv :=
  { inv_of_checks (s := waitPayload [] []) (by decide) (by decide) ⟨by decide, rfl, rfl, by decide, by decide, by decide⟩ with }

theorem inv_waitCipher (i : List Input) : (waitCipher i).Inv :=
  { inv_of_checks (s := waitCipher []) (by decide) (by decide) ⟨rfl, rfl, .inl ⟨rfl, rfl, rfl⟩⟩ with }

theorem inv_waitCipherOf (i : List Input) : (waitCipherOf 0x0003#16 p16 i).Inv :=
  { inv_of_checks (s := waitCipherOf 0x0003#16 p16 []) (by decide) (by decide) ⟨rfl, rfl, .inr ⟨rfl, rfl, by decide, rfl, rfl⟩⟩ with }

theorem inv_waitDecompressor (i : List Input) : (waitDecompressor packed i).Inv :=
  { inv_of_checks (s := waitDecompressor packed []) (by decide) (by decide)
      ⟨rfl, rfl, rfl, by decide, by decide, by decide, by decide⟩ with }

/-- Both clauses: a reset while the source serves a read, of which it has served 3 bytes, and one while idle. -/
theorem witness_ResetActRestoresResetState :
    ((waitPayload hello [.reset 3, .srcOk]).inputs = .reset 3 :: [.srcOk] ∧ (waitPayload hello [.reset 3, .srcOk]).out = some (.src 5)) ∧
    ((fresh [.reset 3]).inputs = .reset 3 :: [] ∧ ∀ n, (fresh [.reset 3]).out ≠ some (.src n)) :=
  ⟨⟨rfl, rfl⟩, rfl, fun n h => by cases h⟩

theorem witness_DecodeOfEncodeIsIdentity : (Instr.informHeader fields0).wf = true := by decide

theorem witness_EncodeOfDecodeIsIdentity : decode (.header h0) = .ok (.informHeader fields0) := by decide

theorem witness_HeaderFieldsByOffset : h0.length = 40 ∧ parseHeader h0 = some fields0 := by decide

theorem witness_StepRunsDecodedInstruction :
    ((fresh [.write 0x00#8 [0x05#8]]).inputs = .write 0x00#8 [0x05#8] :: [] ∧
      ¬((0x05#8 : BitVec 8) = 0x05#8 ∧ (fresh [.write 0x00#8 [0x05#8]]).status.pktValid = true) ∧ decode (.cmd 0x05#8) = .ok .resolve) ∧
    ((held 0x0003#16 p16 k16).status.pktValid = true ∧ decode (.flags (held 0x0003#16 p16 k16).pkt.flags) = .ok (.resolveF3 0#16)) ∧
    ((waitHeader h0 [.srcOk]).inputs = .srcOk :: [] ∧ (waitHeader h0 [.srcOk]).phase = .hdrRead ∧
      (waitHeader h0 [.srcOk]).out = some (.src 40) ∧ 40 ≤ (waitHeader h0 [.srcOk]).stream.length ∧
      decode (.header ((waitHeader h0 [.srcOk]).stream.take 40)) = .ok (.informHeader fields0)) := by decide

theorem witness_PlacedTableWordRuns : decodeTableWord 8 0x04 = some .unpad := by decide

/-- Each alternative of the statement: OP 0, 6 and 7, and a reserved bit beside a legal OP. -/
theorem witness_IllegalCommandWordsRefused :
    (fresh [.write 0x00#8 [0x81#8]]).inputs = .write 0x00#8 [0x81#8] :: [] ∧ (fresh [.write 0x00#8 [0x81#8]]).status.busy = false ∧
    (0x00#8).extractLsb' 0 3 = 0#3 ∧ (0x06#8).extractLsb' 0 3 = 6#3 ∧ (0x07#8).extractLsb' 0 3 = 7#3 ∧ (0x81#8).extractLsb' 3 5 ≠ 0#5 := by
  decide

theorem witness_IllegalOperationsComplete :
    State.reset.status.busy = false ∧ Instr.illegalOp7 ∈ [Instr.illegalOp0, .illegalOp6, .illegalOp7] := by decide

/-- The three clauses: a header, 40 bytes without the magic, 39 bytes. -/
theorem witness_ParseDecodesOrFails :
    ((loaded h0).status.busy = false ∧ (loaded h0).ilen = 40#32 ∧ (loaded h0).ibuf.take 4 = [0x55#8, 0x42#8, 0x4E#8, 0x54#8]) ∧
    ((loaded (0x00#8 :: h0.drop 1)).ilen = 40#32 ∧ (loaded (0x00#8 :: h0.drop 1)).ibuf.take 4 ≠ [0x55#8, 0x42#8, 0x4E#8, 0x54#8]) ∧
    (loaded (h0.take 39)).ilen ≠ 40#32 := by decide

theorem witness_DecodeRequestsHeader : (held 0#16 hello []).status.busy = false := by decide

/-- Both ends of the range: 1 and MAX_PAYLOAD. -/
theorem witness_HeaderWordRequestsPayload :
    (waitHeader h0 []).phase = .hdrRead ∧ (waitHeader h0 []).out = some (.src 40) ∧ (waitHeader h0 []).status.busy = true ∧
    (waitHeader h0 []).oper = some .decode ∧ 1 ≤ ({ fields0 with plen := 1#32 } : Header).plen.toNat ∧
    1 ≤ ({ fields0 with plen := 0xFFFFFFFF#32 } : Header).plen.toNat ∧
    ({ fields0 with plen := 0xFFFFFFFF#32 } : Header).plen.toNat ≤ (waitHeader h0 []).par.maxPayload := by decide

/-- A header that declares length 0; and length 5 where MAX_PAYLOAD is 4. -/
theorem witness_DeclaredLengthChecked :
    ((waitHeader (h0.take 39 ++ [0x00#8]) [.srcOk]).inputs = .srcOk :: [] ∧ (waitHeader (h0.take 39 ++ [0x00#8]) [.srcOk]).phase = .hdrRead ∧
      (waitHeader (h0.take 39 ++ [0x00#8]) [.srcOk]).out = some (.src 40) ∧
      40 ≤ (waitHeader (h0.take 39 ++ [0x00#8]) [.srcOk]).stream.length ∧
      parseHeader ((waitHeader (h0.take 39 ++ [0x00#8]) [.srcOk]).stream.take 40) = some { fields0 with plen := 0#32 }) ∧
    (parseHeader ((capped 4 4 (waitHeader h0 [.srcOk])).stream.take 40) = some fields0 ∧
      (capped 4 4 (waitHeader h0 [.srcOk])).par.maxPayload < fields0.plen.toNat) := by decide

theorem witness_WrongMagicEndsDecode :
    (waitHeader (0x00#8 :: h0.drop 1) [.srcOk]).inputs = .srcOk :: [] ∧ (waitHeader (0x00#8 :: h0.drop 1) [.srcOk]).phase = .hdrRead ∧
    (waitHeader (0x00#8 :: h0.drop 1) [.srcOk]).out = some (.src 40) ∧ 40 ≤ (waitHeader (0x00#8 :: h0.drop 1) [.srcOk]).stream.length ∧
    (waitHeader (0x00#8 :: h0.drop 1) [.srcOk]).stream.take 4 ≠ [0x55#8, 0x42#8, 0x4E#8, 0x54#8] := by decide

theorem witness_SourceFailureEndsDecode :
    ((waitHeader h0 [.srcFail 0xE0F 39]).inputs = .srcFail 0xE0F 39 :: [] ∧ (waitHeader h0 [.srcFail 0xE0F 39]).out = some (.src 40) ∧
      0xE0F < 2 ^ (waitHeader h0 [.srcFail 0xE0F 39]).par.descW ∧ (waitHeader h0 [.srcFail 0xE0F 39]).phase = .hdrRead) ∧
    ((waitPayload [] [.srcFail 0xE0F 0]).out = some (.src 5) ∧ (waitPayload [] [.srcFail 0xE0F 0]).phase = .payRead) := by decide

theorem witness_PayloadCommitsPacket :
    (waitPayload hello [.srcOk]).Inv ∧ (waitPayload hello [.srcOk]).inputs = .srcOk :: [] ∧ (waitPayload hello [.srcOk]).phase = .payRead ∧
    (waitPayload hello [.srcOk]).out = some (.src 5) ∧ 5 ≤ (waitPayload hello [.srcOk]).stream.length :=
  ⟨inv_waitPayload _ _, rfl, rfl, rfl, by decide⟩

/-- A stream that decodes, and one that ends in the payload. -/
theorem witness_DecodeRefinesFramer :
    ({ fresh [.write 0x00#8 [0x02#8], .srcOk, .srcOk] with stream := h0 ++ hello } : State).status.busy = false ∧
    sourceAnswers Params.default (h0 ++ hello) 0xE0F = [.srcOk, .srcOk] ∧
    decodeFun Params.default (h0 ++ hello) 0xE0F = .ok (fields0, hello) ∧
    sourceAnswers Params.default (h0 ++ hello.take 4) 0xE0F = [.srcOk, .srcFail 0xE0F 0] ∧
    decodeFun Params.default (h0 ++ hello.take 4) 0xE0F = .error (.payloadShort 0xE0F) := by decide

/-- Each clause at its boundary: count 0, count above the length, a mismatch, and the whole buffer. -/
theorem witness_UnpadChecksInOrder :
    (0x00#8 : Byte).toNat = 0 ∧ ([] ++ [0x02#8] : Bytes).length < (0x02#8 : Byte).toNat ∧
    (1 ≤ (0x02#8 : Byte).toNat ∧ (0x02#8 : Byte).toNat ≤ ([0x01#8] ++ [0x02#8] : Bytes).length ∧
      ∃ y ∈ ([0x01#8] ++ [0x02#8] : Bytes).drop 0, y ≠ 0x02#8) ∧
    (1 ≤ (0x01#8 : Byte).toNat ∧ (0x01#8 : Byte).toNat ≤ ([] ++ [0x01#8] : Bytes).length ∧
      ∀ y ∈ ([] ++ [0x01#8] : Bytes).drop 0, y = 0x01#8) := by decide

theorem witness_UnpadCommandRunsRemover :
    ((loaded p16).status.busy = false ∧ (loaded p16).ilen.toNat = (loaded p16).ibuf.length ∧ unpad (loaded p16).ibuf = .ok hello) ∧
    ((loaded []).ilen.toNat = (loaded []).ibuf.length ∧ unpad (loaded []).ibuf = .error .noData) := by decide

theorem witness_DecryptCallsCipher :
    ((loaded []).writeKey k16).status.busy = false ∧ ((loaded []).writeKey k16).key.length = 16 ∧
    ((loaded []).writeKey k16).ibuf.length % 16 = 0 := by decide

theorem witness_DecryptPreconditionsInOrder :
    ((loaded p16).writeKey (k16.take 15)).status.busy = false ∧ ((loaded p16).writeKey (k16.take 15)).key.length ≠ 16 ∧
    ((loaded (0#8 :: p16)).writeKey k16).key.length = 16 ∧ ((loaded (0#8 :: p16)).writeKey k16).ibuf.length % 16 ≠ 0 := by decide

/-- Which of the two clauses about the outcome applies is the cipher's affair, unless a precondition fails. -/
theorem witness_DecryptRefinesWrapper :
    ({ loaded p16 with inputs := [] } : State).Inv ∧ (loaded p16).status.busy = false ∧
    decryptFun (loaded p16).key (loaded p16).opiv (loaded p16).ibuf = .error .invalidKey :=
  ⟨inv_loaded _, rfl, by unfold decryptFun; decide⟩

theorem witness_ResolveIsItsSecondLevelOpcode :
    (held 0x8005#16 p16 k16).status.busy = false ∧ (held 0x8005#16 p16 k16).status.pktValid = true ∧
    decode (.flags (held 0x8005#16 p16 k16).pkt.flags) = .ok (.resolveF5 0x8000#16) := by decide

theorem witness_ResolveWithoutPacketRefused :
    State.reset.status.busy = false ∧ State.reset.status.pktValid = false ∧
    Instr.resolve ∈ [Instr.resolve, .resolveF0 0#16, .resolveF1 0#16, .resolveF2 0#16, .resolveF3 0#16, .resolveF4 0#16, .resolveF5 0#16,
      .resolveF6 0#16, .resolveF7 0#16] := by decide

theorem witness_ResolvePlainReturnsPayload :
    (held 0xFFF8#16 hello []).status.busy = false ∧ (held 0xFFF8#16 hello []).status.pktValid = true ∧
    (held 0xFFF8#16 hello []).pkt.flags &&& 0x0007#16 = 0x0000#16 ∧
    (held 0xFFF8#16 hello []).pkt.plen.toNat = (held 0xFFF8#16 hello []).pbuf.length ∧
    Instr.resolveF0 0#16 ∈ [Instr.resolve, .resolveF0 0#16] := by decide

theorem witness_ResolveLegacyUnsupported :
    (held 0x0002#16 hello []).status.busy = false ∧ (held 0x0002#16 hello []).status.pktValid = true ∧
    ((held 0x0002#16 hello []).pkt.flags &&& 0x0007#16 = 0x0002#16 ∧ Instr.resolveF2 0#16 ∈ [Instr.resolve, .resolveF2 0#16]) ∧
    ((held 0x0006#16 hello []).pkt.flags &&& 0x0007#16 = 0x0006#16 ∧ Instr.resolveF6 0#16 ∈ [Instr.resolve, .resolveF6 0#16]) := by decide

/-- Both clauses at the boundary: ten bytes and nine. -/
theorem witness_ResolveSnappyStripsTrailer :
    (held 0x0004#16 t10 []).status.busy = false ∧ (held 0x0004#16 t10 []).status.pktValid = true ∧
    (held 0x0004#16 t10 []).pkt.flags &&& 0x0007#16 = 0x0004#16 ∧ Instr.resolveF4 0#16 ∈ [Instr.resolve, .resolveF4 0#16] ∧
    10 ≤ (held 0x0004#16 t10 []).pbuf.length ∧ (held 0x0004#16 (t10.take 9) []).pbuf.length < 10 := by decide

/-- The four opcodes, and the three clauses. -/
theorem witness_ResolveEncryptedCallsCipher :
    ((held 0x0001#16 p16 k16).status.busy = false ∧ (held 0x0001#16 p16 k16).status.pktValid = true ∧
      (held 0x0001#16 p16 k16).pkt.flags &&& 0x0007#16 = 0x0001#16 ∧ (held 0x0003#16 p16 k16).pkt.flags &&& 0x0007#16 = 0x0003#16 ∧
      (held 0x0005#16 p16 k16).pkt.flags &&& 0x0007#16 = 0x0005#16 ∧ (held 0x0007#16 p16 k16).pkt.flags &&& 0x0007#16 = 0x0007#16) ∧
    ((held 0x0001#16 p16 k16).key.length = 16 ∧ (held 0x0001#16 p16 k16).pbuf.length % 16 = 0) ∧
    (held 0x0001#16 p16 (k16.take 15)).key.length ≠ 16 ∧ (held 0x0001#16 hello k16).pbuf.length % 16 ≠ 0 := by decide

theorem witness_ResolveRefinesPipeline :
    ({ held 0x0003#16 p16 k16 with inputs := [] } : State).Inv ∧ (held 0x0003#16 p16 k16).status.busy = false ∧
    (held 0x0003#16 p16 k16).status.pktValid = true ∧ resolveFun Params.default 0#16 [] hello [] = .ok hello ∧
    resolveFun Params.default 2#16 [] hello [] = .error .compressedFlag :=
  ⟨inv_held _, rfl, rfl, by unfold resolveFun laterStagesFun; decide, by unfold resolveFun laterStagesFun; decide⟩

/-- At the acceptance of the RESOLVE, and at the answer to it. -/
theorem witness_CompressedNeverYieldsResult :
    (({ held 0x0003#16 p16 k16 with inputs := [.write 0x00#8 [0x05#8]] } : State).Inv ∧
      (held 0x0003#16 p16 k16).status.pktValid = true ∧ (held 0x0003#16 p16 k16).pkt.flags &&& 0x0002#16 ≠ 0#16 ∧
      (held 0x0003#16 p16 k16).status.busy = false ∧
      ∃ t, step ({ held 0x0003#16 p16 k16 with inputs := [.write 0x00#8 [0x05#8]] } : State) = .next t) ∧
    ((waitCipherOf 0x0003#16 p16 [.ciphAnswer]).Inv ∧ (waitCipherOf 0x0003#16 p16 [.ciphAnswer]).oper = some .resolve ∧
      ∃ t, step (waitCipherOf 0x0003#16 p16 [.ciphAnswer]) = .next t) :=
  ⟨⟨inv_held _, rfl, by decide, rfl, _, rfl⟩, inv_waitCipherOf _, rfl, _, rfl⟩

/-- Which clause applies is the collaborator's affair; there is no third kind of answer. -/
theorem witness_DecompressorAnswerReported :
    (waitDecompressor packed [.dcmpAnswer]).Inv ∧ (waitDecompressor packed [.dcmpAnswer]).inputs = .dcmpAnswer :: [] ∧
    (waitDecompressor packed [.dcmpAnswer]).phase = .dcmpWait ∧
    (waitDecompressor packed [.dcmpAnswer]).out = some (.dcmp (0x05#8 :: hello)) ∧
    ((∃ d, Config.decompress (0x05#8 :: hello) = .fail d) ∨ ∃ o, Config.decompress (0x05#8 :: hello) = .ok o) := by
  refine ⟨inv_waitDecompressor _, rfl, rfl, by decide, ?_⟩
  cases Config.decompress (0x05#8 :: hello) with
  | fail d => exact .inl ⟨d, rfl⟩
  | ok o => exact .inr ⟨o, rfl⟩

theorem witness_StepKeepsInvariant :
    (waitPayload hello [.srcOk]).Inv ∧ ∃ t, step (waitPayload hello [.srcOk]) = .next t :=
  ⟨inv_waitPayload _ _, _, rfl⟩

/-- Two states that differ in WBUF and in the contents of the invalid header-field group. -/
theorem witness_UnreadableContentsInfluenceNothing :
    (fresh [.write 0x00#8 [0x04#8]]).Inv ∧
    ({ fresh [.write 0x00#8 [0x04#8]] with wbuf := hello, hf := fields0 } : State).Inv ∧
    (fresh [.write 0x00#8 [0x04#8]]).visible = ({ fresh [.write 0x00#8 [0x04#8]] with wbuf := hello, hf := fields0 } : State).visible ∧
    fresh [.write 0x00#8 [0x04#8]] ≠ { fresh [.write 0x00#8 [0x04#8]] with wbuf := hello, hf := fields0 } :=
  ⟨inv_fresh _, { inv_of_checks (s := { State.reset with wbuf := hello, hf := fields0 }) (by decide) (by decide) ⟨rfl, rfl⟩ with }, rfl,
    by decide⟩

theorem witness_OperandsChangeOnlyByHost :
    (∃ t, step (fresh [.write 0x00#8 [0x04#8]]) = .next t) ∧
    ∀ i rest, (fresh [.write 0x00#8 [0x04#8]]).inputs = i :: rest → i.writesOperand = false ∧ ∀ k, i ≠ .reset k := by
  refine ⟨⟨_, rfl⟩, ?_⟩
  intro i rest h
  cases h
  exact ⟨rfl, fun k => by simp⟩

theorem witness_PacketImmutableOnceValid :
    ({ held 0x0003#16 p16 k16 with inputs := [.write 0x00#8 [0x05#8]] } : State).Inv ∧
    (∃ t, step { held 0x0003#16 p16 k16 with inputs := [.write 0x00#8 [0x05#8]] } = .next t) ∧
    (held 0x0003#16 p16 k16).status.pktValid = true ∧
    ∀ k rest, [Input.write 0x00#8 [0x05#8]] ≠ .write 0x00#8 [0x02#8] :: rest ∧ [Input.write 0x00#8 [0x05#8]] ≠ .reset k :: rest :=
  ⟨inv_held _, ⟨_, rfl⟩, rfl, fun _ _ => ⟨by simp, by simp⟩⟩

theorem witness_HeaderGroupChangesOnlyByParse :
    (∃ t, step (fresh [.write 0x00#8 [0x02#8]]) = .next t) ∧
    ∀ k rest, (fresh [.write 0x00#8 [0x02#8]]).inputs ≠ .write 0x00#8 [0x01#8] :: rest ∧
      (fresh [.write 0x00#8 [0x02#8]]).inputs ≠ .reset k :: rest :=
  ⟨⟨_, rfl⟩, fun _ _ => ⟨by simp [fresh], by simp [fresh]⟩⟩

theorem witness_ParametersNeverChange : ∃ t, step (waitPayload hello [.reset 0]) = .next t := ⟨_, rfl⟩

theorem witness_PhaseTransitionsOnlyAsListed :
    (waitHeader h0 [.srcOk]).Inv ∧ ∃ t, step (waitHeader h0 [.srcOk]) = .next t ∧ t.phase = .payRead :=
  ⟨inv_waitHeader _ _, _, rfl, rfl⟩

/-- A step that makes a request. -/
theorem witness_RequestsMeetTheirContracts :
    (waitHeader h0 [.srcOk]).Inv ∧ ∃ t, step (waitHeader h0 [.srcOk]) = .next t ∧ t.obs = [.request (.src 5)] :=
  ⟨inv_waitHeader _ _, _, rfl, rfl⟩

/-- A DECODE and a RESOLVE that fail when answered. -/
theorem witness_FailureLeavesNoPartialResult :
    ((waitPayload [] [.srcFail 1 0]).Inv ∧ (waitPayload [] [.srcFail 1 0]).status.busy = true ∧
      (waitPayload [] [.srcFail 1 0]).oper = some .decode ∧
      ∃ t, step (waitPayload [] [.srcFail 1 0]) = .next t ∧ t.status.err = true) ∧
    ((waitCipherOf 0x0003#16 p16 []).Inv ∧ (waitCipherOf 0x0003#16 p16 []).oper ≠ some .decode ∧
      (cipherAnswered p16 (waitCipherOf 0x0003#16 p16 [])).status.err = true) :=
  ⟨⟨inv_waitPayload _ _, rfl, rfl, _, rfl, rfl⟩, inv_waitCipherOf _, by decide, by decide⟩

/-- Each of the four answers. -/
theorem witness_EveryAnswerBringsCompletionNearer :
    ((waitHeader h0 [.srcOk]).Inv ∧ (waitHeader h0 [.srcOk]).status.busy = true ∧ (waitHeader h0 [.srcOk]).awaits .srcOk = true) ∧
    ((waitPayload [] [.srcFail 1 0]).Inv ∧ (waitPayload [] [.srcFail 1 0]).awaits (.srcFail 1 0) = true) ∧
    ((waitCipher [.ciphAnswer]).Inv ∧ (waitCipher [.ciphAnswer]).awaits .ciphAnswer = true) ∧
    ((waitDecompressor packed [.dcmpAnswer]).Inv ∧ (waitDecompressor packed [.dcmpAnswer]).awaits .dcmpAnswer = true) :=
  ⟨⟨inv_waitHeader _ _, rfl, by decide⟩, ⟨inv_waitPayload _ _, by decide⟩, ⟨inv_waitCipher _, by decide⟩, inv_waitDecompressor _, by decide⟩

theorem witness_NothingHappensUnasked : (waitHeader h0 []).inputs = [] := rfl

/-- An act that is admitted and one that is not. -/
theorem witness_StepsExactlyWhereAdmitted :
    ((fresh [.write 0x0A#8 k16]).Inv ∧ (fresh [.write 0x0A#8 k16]).admits (.write 0x0A#8 k16) = true) ∧
    ((fresh [.write 0x0A#8 hello]).Inv ∧ (fresh [.write 0x0A#8 hello]).admits (.write 0x0A#8 hello) = false) :=
  ⟨⟨inv_fresh _, by decide⟩, inv_fresh _, by decide⟩

theorem witness_BusyBlockAdmitsOnlyStatusRead :
    (waitHeader [] [.read 0x01#8]).status.busy = true ∧ (Input.read 0x01#8).isHostAccess = true ∧
    (Input.write 0x00#8 [0x04#8]).isHostAccess = true ∧ Input.write 0x00#8 [0x04#8] ≠ .read 0x01#8 := by decide

/-- Register numbers between and beyond the assigned ones. -/
theorem witness_RegisterNumbersNameRegisters :
    (∀ r : Reg, r.number ≠ 0x05#8) ∧ (∀ r : Reg, r.number ≠ 0x22#8) ∧ State.reset.status.busy = false :=
  ⟨fun r => by cases r <;> decide, fun r => by cases r <;> decide, rfl⟩

theorem witness_HostReadsAsAdmitted :
    ((held 0#16 hello []).status.busy = false ∧ (held 0#16 hello []).mayRead .pbuf = true ∧
      ({ held 0#16 hello [] with inputs := [.read 0x1E#8] } : State).inputs = .read (Reg.number .pbuf) :: [] ∧
      (Reg.pbuf, Value.bytes (held 0#16 hello []).pbuf) ∈ [(Reg.rlen, Value.num 0), (.pbuf, .bytes hello)]) ∧
    (held 0#16 hello []).mayRead .rbuf = false ∧ (held 0#16 hello []).mayRead .key = false := by decide

/-- KEY and IBUF at their capacities' ends, OPIV at its one length. -/
theorem witness_HostWritesOperands :
    State.reset.status.busy = false ∧ State.reset.par.wf = true ∧ (k16 ++ k16).length ≤ State.reset.par.keyMax ∧ k16.length = 16 ∧
    ([] : Bytes).length ≤ State.reset.par.maxOperand := by decide

theorem inv_heldWithResult (i : List Input) : (heldWithResult i).Inv :=
  { inv_of_checks (s := heldWithResult []) (by decide) (by decide) ⟨rfl, rfl⟩ with }

/-- The last byte of IBUF, written and read, and valid packet and result groups. -/
theorem witness_PiecewiseAccessByByte :
    ({ loaded p16 with inputs := [] } : State).Inv ∧ (loaded p16).status.busy = false ∧ 15 + [0x0C#8].length ≤ (loaded p16).ilen.toNat ∧
    (loaded p16).admits (.memRead .ibuf 15 1) = true ∧
    ((heldWithResult []).Inv ∧ (heldWithResult []).status.pktValid = true ∧ (heldWithResult []).status.resValid = true ∧
      (heldWithResult []).admits (.memRead .pbuf 15 1) = true ∧ (heldWithResult []).admits (.memRead .rbuf 4 1) = true) :=
  ⟨inv_loaded _, rfl, by decide, by decide, inv_heldWithResult _, rfl, rfl, by decide, by decide⟩

theorem witness_UnsolicitedAnswersHaveNoStep :
    (fresh [.ciphAnswer]).Inv ∧ (fresh [.ciphAnswer]).phase ≠ .ciphWait ∧ (fresh [.dcmpAnswer]).phase ≠ .dcmpWait ∧
    (fresh [.srcOk]).phase ≠ .hdrRead ∧ (fresh [.srcOk]).phase ≠ .payRead :=
  ⟨inv_fresh _, by decide, by decide, by decide, by decide⟩

theorem witness_CommandsKeepOtherBuffers : ∃ t, exec .unpad (loaded p16) = .next t := ⟨_, rfl⟩

theorem witness_HeaderWordOnlyWhenAwaited : (waitPayload [] []).phase ≠ .hdrRead := by decide

theorem witness_InspectResolvesOnlyAfterSuccess :
    (({ held 0#16 hello [] with inputs := [.inspectResolve] } : State).inputs = .inspectResolve :: [] ∧
      (held 0#16 hello []).status.busy = false ∧ (held 0#16 hello []).status.done = true ∧ (held 0#16 hello []).status.err = false) ∧
    ((State.reset.raise .headerTooShort).status.busy = false ∧ (State.reset.raise .headerTooShort).status.done = true ∧
      (State.reset.raise .headerTooShort).status.err = true) := by decide

/-- An end, and a wait with nothing queued. -/
theorem witness_RunEndsOnlyWhenIdle :
    ((heldWithResult []).Inv ∧ (heldWithResult []).runEnded = true) ∧
    ((waitHeader h0 []).Inv ∧ (waitHeader h0 []).inputs = [] ∧ (waitHeader h0 []).status.busy = true ∧
      ∃ t, Host.Core.run core 0 (waitHeader h0 []) = .next t) :=
  ⟨⟨inv_heldWithResult _, by decide⟩, inv_waitHeader _ _, rfl, rfl, _, rfl⟩

/-- Each of the three cases. -/
theorem witness_SourceAskedOnlyByDecode :
    ((fresh [.write 0x00#8 [0x02#8]]).Inv ∧ ∃ t, step (fresh [.write 0x00#8 [0x02#8]]) = .next t ∧ t.phase = .hdrRead) ∧
    ((waitHeader h0 [.srcOk]).Inv ∧ ∃ t, step (waitHeader h0 [.srcOk]) = .next t ∧ t.phase = .payRead) ∧
    ((waitPayload hello [.srcOk]).Inv ∧ ∃ t, step (waitPayload hello [.srcOk]) = .next t ∧ t.phase = .idle) :=
  ⟨⟨inv_fresh _, _, rfl, rfl⟩, ⟨inv_waitHeader _ _, _, rfl, rfl⟩, inv_waitPayload _ _, _, rfl, rfl⟩

end Sys2Proof.Tests
end

section
/-! SUPPORT. What each host access and each collaborator's answer can do, once (R190, R191, R196 to R198). -/

open Sys2Proof

namespace Sys2Proof.Machine

variable {s t : State}

/-! ## Register numbers (R37) -/

theorem Reg.ofNumber_number (r : Reg) : Reg.ofNumber r.number = some r := by
  cases r <;> decide

theorem Reg.ofNumber_eq_some {n : BitVec 8} {r : Reg} : Reg.ofNumber n = some r ↔ r.number = n := by
  constructor
  · intro h
    simpa using List.find?_some h
  · rintro rfl
    exact Reg.ofNumber_number r

theorem Reg.ofNumber_eq_none {n : BitVec 8} : Reg.ofNumber n = none ↔ ∀ r : Reg, r.number ≠ n := by
  simp only [Option.eq_none_iff_forall_ne_some, ne_eq, Reg.ofNumber_eq_some]

/-! ## Host accesses (R190, R191) -/

theorem readReg_of_idle (hb : s.status.busy = false) (r : Reg) : s.readReg r = s.regValue r := by
  simp [State.readReg, hb]

theorem readReg_of_busy (hb : s.status.busy = true) {r : Reg} (hr : r ≠ .status) : s.readReg r = .error .busy := by
  simp [State.readReg, hb, hr]

theorem hostRead_next {n : BitVec 8} :
    hostRead n s = .next t ↔
      ∃ r v, Reg.ofNumber n = some r ∧ s.readReg r = .ok v ∧ t = { s with obs := .read n v :: s.obs } := by
  unfold hostRead
  cases Reg.ofNumber n with
  | none => simp
  | some r => cases hv : s.readReg r <;> simp [hv, eq_comm]

theorem writeReg_next {r : Reg} {v : Bytes} :
    s.writeReg r v = .next t ↔
      (r = .key ∧ v.length ≤ s.par.keyMax ∧ t = s.writeKey v) ∨
      (r = .opiv ∧ v.length = Config.ivLen ∧ t = s.writeOpiv v) ∨
      (r = .ibuf ∧ v.length ≤ s.par.maxOperand ∧ t = s.writeIbuf v) := by
  cases r
  case key => by_cases hv : s.par.keyMax < v.length <;> simp [State.writeReg, hv, eq_comm]; omega
  case opiv => by_cases hv : v.length = Config.ivLen <;> simp [State.writeReg, hv, eq_comm]
  case ibuf => by_cases hv : s.par.maxOperand < v.length <;> simp [State.writeReg, hv, eq_comm]; omega
  all_goals simp [State.writeReg]

theorem hostWrite_next {n : BitVec 8} {v : Bytes} :
    hostWrite n v s = .next t ↔
      s.status.busy = false ∧
        ((n = 0x09#8 ∧ v.length ≤ s.par.keyMax ∧ t = s.writeKey v) ∨
          (n = 0x0A#8 ∧ v.length = Config.ivLen ∧ t = s.writeOpiv v) ∨
          (n = 0x0C#8 ∧ v.length ≤ s.par.maxOperand ∧ t = s.writeIbuf v)) := by
  have number : ∀ {r : Reg}, Reg.ofNumber n = some r → ∀ q : Reg, n = q.number ↔ r = q := by
    intro r hr q
    rw [← Reg.ofNumber_eq_some.mp hr]
    exact ⟨fun h => Option.some.inj (by rw [← Reg.ofNumber_number r, h, Reg.ofNumber_number]), congrArg _⟩
  unfold hostWrite
  cases s.status.busy
  case true => simp
  case false =>
    cases hr : Reg.ofNumber n with
    | none =>
      have unassigned : ∀ r : Reg, n ≠ r.number := fun r => (Reg.ofNumber_eq_none.mp hr r).symm
      simpa using ⟨fun h => absurd h (unassigned .key), fun h => absurd h (unassigned .opiv), fun h => absurd h (unassigned .ibuf)⟩
    | some r =>
      have key := number hr .key
      have opiv := number hr .opiv
      have ibuf := number hr .ibuf
      simp only [Reg.number] at key opiv ibuf
      simp [writeReg_next, key, opiv, ibuf]

theorem hostMemRead_next {sp : Space} {a n : Nat} :
    hostMemRead sp a n s = .next t ↔
      s.status.busy = false ∧ ∃ b, s.spaceBytes sp = .ok b ∧ a + n ≤ b.length ∧
        t = { s with obs := .memRead sp a n (slice b a (a + n)) :: s.obs } := by
  unfold hostMemRead
  cases s.status.busy
  case true => simp
  case false =>
    cases s.spaceBytes sp with
    | error e => simp
    | ok b => by_cases h : a + n ≤ b.length <;> simp [h, eq_comm]

theorem hostMemWrite_next {sp : Space} {a : Nat} {v : Bytes} :
    hostMemWrite sp a v s = .next t ↔
      s.status.busy = false ∧ sp = .ibuf ∧ a + v.length ≤ s.ilen.toNat ∧ t = s.patchIbuf a v := by
  unfold hostMemWrite
  cases s.status.busy
  case true => simp
  case false =>
    cases sp
    case ibuf => by_cases h : a + v.length ≤ s.ilen.toNat <;> simp [h, eq_comm]
    all_goals simp

theorem inspectIdle_next : inspectIdle s = .next t ↔ s.status.busy = false ∧ t = s := by
  unfold inspectIdle
  cases s.status.busy <;> simp [eq_comm]

/-! ## Answers (R63, R196, R198) -/

theorem answerSourceOk_next :
    answerSourceOk s = .next t ↔
      ∃ n, s.out = some (.src n) ∧ n ≤ s.stream.length ∧ s.phase = .payRead ∧
        t = payloadArrived (s.stream.take n) { s with stream := s.stream.drop n } := by
  unfold answerSourceOk
  split
  case h_1 n ho =>
    by_cases hl : s.stream.length < n
    · simp [ho, hl]
    · by_cases hp : s.phase = .payRead <;> simp [ho, hl, Nat.not_lt.mp hl, hp, eq_comm]
  all_goals rename_i ho; simp [ho]

theorem answerSourceFail_next {d k : Nat} :
    answerSourceFail d k s = .next t ↔
      ∃ n, s.out = some (.src n) ∧ t = sourceFailed d { s with stream := s.stream.drop k } := by
  unfold answerSourceFail
  split <;> rename_i ho <;> simp [ho, eq_comm]

theorem answerCipher_next :
    answerCipher s = .next t ↔
      ∃ key iv ct, s.out = some (.ciph key iv ct) ∧ t = cipherAnswered (Config.cbcDecrypt key iv ct) s := by
  unfold answerCipher
  split <;> rename_i ho <;> simp [ho, eq_comm]

theorem answerDecompressor_next :
    answerDecompressor s = .next t ↔
      ∃ data, s.out = some (.dcmp data) ∧ t = decompressorAnswered (Config.decompress data) s := by
  unfold answerDecompressor
  split <;> rename_i ho <;> simp [ho, eq_comm]

/-! ## Second-level opcodes (R101) -/

theorem secondLevel_next {k : BitVec 3} {stages : State → State} :
    s.secondLevel k stages = .next t ↔
      s.status.busy = false ∧
        ((s.status.pktValid = true ∧ flagsClass s.pkt.flags = k ∧
            t = stages (s.accept.setOper (some .resolve)).startResolve) ∨
          (s.status.pktValid = false ∧ t = (s.accept.setOper (some .resolve)).raise .noPacket)) := by
  cases hb : s.status.busy
  case true => simp [State.secondLevel, hb, command_refused]
  case false =>
    cases hp : s.status.pktValid
    case false => simp [secondLevel_without_packet s k stages hb hp, eq_comm]
    case true =>
      by_cases hk : flagsClass s.pkt.flags = k
      · simp [secondLevel_of_held s k stages hb hp hk, hk, eq_comm]
      · simp [State.secondLevel, hb, hp, hk]

end Sys2Proof.Machine
end

section
/-! SUPPORT. Every operation and every step keeps the invariant (R22 to R33). -/

open Sys2Proof

namespace Sys2Proof.Machine

variable {s t : State}

/-! ## What a step of the invariant may rest on -/

/-- R40: stream, pending acts and record are not state of the block. -/
theorem Inv.outside (h : s.Inv) (st : Bytes) (i : List Input) (o : List Obs) :
    ({ s with stream := st, inputs := i, obs := o } : State).Inv :=
  { h with report := h.report, waiting := h.waiting }

/-- R250: reset gives the invariant, whatever is outside the block. -/
theorem Inv.ofReset {p : Params} (hp : p.wf = true) (st : Bytes) (i : List Input) (o : List Obs) :
    ({ State.reset with par := p, stream := st, inputs := i, obs := o } : State).Inv :=
  { State.DataOk.reset hp with
    notBoth := rfl, errDone := nofun, busyPhase := by simp [State.reset]
    report := rfl, waiting := ⟨rfl, rfl⟩ }

theorem Inv.accepted (h : s.Inv) (hb : s.status.busy = true) : s.Accepted :=
  have ⟨done, err, kind, reason, info⟩ := Inv.busy_facts h hb
  ⟨hb, done, err, kind, reason, info⟩

/-- Two states agree on the control state: STATUS, the error report, PHASE, OUT and the parameters. -/
structure SameControl (s t : State) : Prop where
  status : t.status = s.status
  errKind : t.errKind = s.errKind
  errReason : t.errReason = s.errReason
  errInfo : t.errInfo = s.errInfo
  phase : t.phase = s.phase
  oper : t.oper = s.oper
  out : t.out = s.out
  par : t.par = s.par

/-- R190: in IDLE the data alone may change, for no wait speaks of them. -/
theorem Inv.withData (h : s.Inv) (hb : s.status.busy = false) (hd : t.DataOk) (c : SameControl s t) : t.Inv :=
  have hidle := Inv.idle h hb
  have hwait : s.out = none ∧ s.oper = none := by simpa [State.WaitOk, hidle] using h.waiting
  { hd with
    notBoth := by rw [c.status]; exact h.notBoth
    errDone := by rw [c.status]; exact h.errDone
    busyPhase := by rw [c.status, c.phase]; exact h.busyPhase
    report := by simpa only [State.reportOk, c.status, c.par, c.errKind, c.errReason, c.errInfo] using h.report
    waiting := by simpa [State.WaitOk, c.phase, hidle, c.out, c.oper] using hwait }

/-- An error cause without a description of its own. -/
theorem State.DataOk.inv_raise_plain (h : s.DataOk) {e : Err} (he : e.info = 0) : (s.raise e).Inv :=
  h.inv_raise (he ▸ two_pow_pos _)

/-! ## The commands -/

theorem inv_command {o : Option Oper} {body : State → State} (h : s.Inv)
    (hbody : ∀ u : State, u.DataOk → u.Accepted → u.oper = o → (body u).Inv) (hc : s.command o body = .next t) : t.Inv := by
  obtain ⟨-, rfl⟩ := command_next.mp hc
  obtain ⟨hd, ha⟩ := accepted_dataOk (o := o) h
  exact hbody _ hd ha rfl

theorem inv_parseBody (h : s.DataOk) (a : s.Accepted) : s.parseBody.Inv := by
  unfold State.parseBody
  split
  case isTrue => exact h.inv_raise_plain rfl
  case isFalse hl =>
    split
    case h_1 => exact h.clearHeader.inv_raise_plain rfl
    case h_2 f hf =>
      have hlen : s.ibuf.length = 40 := by
        rw [← h.ibufLength, not_not.mp hl]
        rfl
      have hwf : f.wf = true := by
        unfold parseHeader at hf
        split at hf <;> cases hf
        exact headerFields_wf _ hlen
      exact (h.clearHeader.commitHeader hwf).inv_complete a.err a.kind a.reason a.info

theorem inv_decodeBody (h : s.DataOk) (a : s.Accepted) (ho : s.oper = some .decode) : s.decodeBody.Inv :=
  h.clearPacket.inv_request a.busy a.done a.err a.kind a.reason a.info (by decide) ⟨rfl, ho, rfl⟩

theorem inv_decryptBody (h : s.DataOk) (a : s.Accepted) (ho : s.oper = some .decrypt) : s.decryptBody.Inv :=
  inv_startDecrypt (h.clearResult.setWork _) ⟨a.busy, a.done, a.err, a.kind, a.reason, a.info⟩ rfl (.inl ⟨ho, rfl, rfl⟩)

theorem inv_unpadBody (h : s.DataOk) (a : s.Accepted) : s.unpadBody.Inv := by
  unfold State.unpadBody
  split
  case h_1 e he => exact (h.clearResult.setWork _).inv_raise_plain (unpad_error he).1
  case h_2 u hu =>
    have hu := unpad_length hu
    have hi := Inv.ibuf_le h
    exact inv_finishWork ((h.clearResult.setWork _).setWork _) ⟨a.busy, a.done, a.err, a.kind, a.reason, a.info⟩
      (by simp only [State.setWork_wbuf]; omega)

/-! ## RESOLVE -/

/-- R171: RESOLVE is accepted with a valid Packet, and the payload is copied. -/
structure State.ResolveStarted (s : State) : Prop where
  data : s.DataOk
  accepted : s.Accepted
  oper : s.oper = some .resolve
  packet : s.status.pktValid = true
  noResult : s.status.resValid = false
  work : s.wbuf = s.pbuf

theorem resolveStarted_of_accepted (h : s.DataOk) (a : s.Accepted) (ho : s.oper = some .resolve)
    (hp : s.status.pktValid = true) : s.startResolve.ResolveStarted :=
  ⟨h.clearResult.setWork _, ⟨a.busy, a.done, a.err, a.kind, a.reason, a.info⟩, ho, hp, rfl, rfl⟩

theorem State.ResolveStarted.work_le (r : s.ResolveStarted) : s.wbuf.length ≤ 2 ^ 32 - 1 :=
  r.work ▸ Inv.pbuf_le r.data r.packet

theorem State.ResolveStarted.inv_decryptStage (r : s.ResolveStarted) (he : isEncrypted s.pkt.flags = true) :
    s.decryptStage.Inv :=
  inv_startDecrypt r.data r.accepted r.noResult (.inr ⟨r.oper, r.packet, he, rfl, r.work⟩)

theorem State.ResolveStarted.inv_snappyStage (r : s.ResolveStarted) (hs : isSnappy s.pkt.flags = true)
    (hc : isCompressed s.pkt.flags = false) : s.snappyStage.Inv :=
  Machine.inv_snappyStage r.data r.accepted r.noResult r.oper r.packet hs hc

theorem State.ResolveStarted.inv_finishWork (r : s.ResolveStarted) : s.finishWork.Inv :=
  Machine.inv_finishWork r.data r.accepted r.work_le

theorem inv_resolveBody (h : s.DataOk) (a : s.Accepted) (ho : s.oper = some .resolve) : s.resolveBody.Inv := by
  unfold State.resolveBody
  split
  case isFalse => exact h.inv_raise_plain rfl
  case isTrue hp =>
    have r := resolveStarted_of_accepted h a ho hp
    split
    case isTrue he => exact r.inv_decryptStage he
    case isFalse => exact inv_afterDecrypt r.data r.accepted r.noResult r.oper r.packet r.work_le

theorem inv_secondLevel {k : BitVec 3} {stages : State → State} (h : s.Inv)
    (hstages : ∀ u : State, u.ResolveStarted → flagsClass u.pkt.flags = k → (stages u).Inv)
    (hc : s.secondLevel k stages = .next t) : t.Inv := by
  obtain ⟨hd, ha⟩ := accepted_dataOk (o := some .resolve) h
  obtain ⟨-, ⟨hp, hk, rfl⟩ | ⟨-, rfl⟩⟩ := secondLevel_next.mp hc
  · exact hstages _ (resolveStarted_of_accepted hd ha rfl hp) hk
  · exact hd.inv_raise_plain rfl

/-- R101: the opcodes of rows 1, 3, 5 and 7, whose Packet is encrypted. -/
theorem inv_decryptOpcode {k : BitVec 3} (h : s.Inv) (hk : k.getLsbD 0 = true)
    (hc : s.secondLevel k State.decryptStage = .next t) : t.Inv :=
  inv_secondLevel h (fun _ r hu => r.inv_decryptStage (by rw [(flag_tests_of_class _).1, hu, hk])) hc

/-! ## The header word -/

theorem awaitsHeader_iff : s.awaitsHeader = true ↔ s.phase = .hdrRead ∧ s.out = some (.src Config.headerLen) := by
  simp [State.awaitsHeader]

theorem execInformHeader_next {f : Header} :
    execInformHeader f s = .next t ↔
      s.awaitsHeader = true ∧ t = (s.setHeaderBuffer (encodeHeader f)).frameHeader f := by
  unfold execInformHeader
  cases s.awaitsHeader <;> simp [eq_comm]

theorem rejectHeader_next {b : Bytes} :
    rejectHeader b s = .next t ↔ s.awaitsHeader = true ∧ t = (s.setHeaderBuffer b).raise .invalidMagic := by
  unfold rejectHeader
  cases s.awaitsHeader <;> simp [eq_comm]

theorem inv_informHeader {f : Header} (h : s.Inv) (hf : f.wf = true) (hx : execInformHeader f s = .next t) : t.Inv := by
  obtain ⟨hw, rfl⟩ := execInformHeader_next.mp hx
  obtain ⟨hp, -⟩ := awaitsHeader_iff.mp hw
  have a := Inv.accepted h (Inv.busy h (by rw [hp]; decide))
  have hd : (s.setHeaderBuffer (encodeHeader f)).DataOk := h.toDataOk.setHeaderBuffer (encodeHeader_length f hf)
  obtain ⟨-, hoper, hpkt⟩ : _ ∧ s.oper = some .decode ∧ s.status.pktValid = false := by
    simpa only [State.WaitOk, hp] using h.waiting
  unfold State.frameHeader
  split
  case isTrue => exact hd.inv_raise_plain rfl
  case isFalse hz =>
    split
    case isTrue => exact hd.inv_raise_plain rfl
    case isFalse hmax =>
      have hpos : f.plen.toNat ≠ 0 := fun h0 => hz (BitVec.eq_of_toNat_eq h0)
      refine hd.inv_request a.busy a.done a.err a.kind a.reason a.info (by decide) ?_
      simp only [State.WaitOk, State.request_phase, State.request_hbuf, State.setHeaderBuffer_hbuf, headerFields_encodeHeader f hf]
      exact ⟨rfl, hoper, hpkt, Nat.one_le_iff_ne_zero.mpr hpos, Nat.not_lt.mp hmax, magicMatches_encodeHeader f⟩

/-- R90, R120: only a header word decodes to INFORM_HEADER, and its fields are well formed. -/
theorem decode_informHeader_wf {w : CodeWord} {f : Header} (h : decode w = .ok (.informHeader f)) : f.wf = true := by
  cases w with
  | cmd c =>
    simp only [decode, decodeCommand] at h
    split at h
    · cases h
    · split at h <;> cases h
  | flags g =>
    simp only [decode, decodeFlags] at h
    split at h <;> cases h
  | header b =>
    simp only [decode, decodeHeader, parseHeader] at h
    split at h
    · cases h
    · rename_i hl
      split at h <;> rename_i hp
      · cases h
        split at hp <;> cases hp
        exact headerFields_wf b (not_not.mp hl)
      · cases h

/-! ## One instruction, one code word -/

theorem inv_exec {i : Instr} (h : s.Inv) (hi : ∀ f, i = .informHeader f → f.wf = true) (hx : exec i s = .next t) : t.Inv := by
  cases i
  case parse => exact inv_command h (fun _ d a _ => inv_parseBody d a) hx
  case decode => exact inv_command h (fun _ d a o => inv_decodeBody d a o) hx
  case decrypt => exact inv_command h (fun _ d a o => inv_decryptBody d a o) hx
  case unpad => exact inv_command h (fun _ d a _ => inv_unpadBody d a) hx
  case resolve => exact inv_command h (fun _ d a o => inv_resolveBody d a o) hx
  case informHeader f => exact inv_informHeader h (hi f rfl) hx
  case resolveF0 => exact inv_secondLevel h (fun _ r _ => r.inv_finishWork) hx
  case resolveF2 => exact inv_secondLevel h (fun _ r _ => r.data.inv_raise_plain rfl) hx
  case resolveF6 => exact inv_secondLevel h (fun _ r _ => r.data.inv_raise_plain rfl) hx
  case resolveF4 =>
    refine inv_secondLevel h (fun u r hk => r.inv_snappyStage ?_ ?_) hx
    · rw [(flag_tests_of_class _).2.2, hk]; rfl
    · rw [(flag_tests_of_class _).2.1, hk]; rfl
  case resolveF1 => exact inv_decryptOpcode h rfl hx
  case resolveF3 => exact inv_decryptOpcode h rfl hx
  case resolveF5 => exact inv_decryptOpcode h rfl hx
  case resolveF7 => exact inv_decryptOpcode h rfl hx
  case illegalOp0 | illegalOp6 | illegalOp7 => exact inv_command h (fun _ d _ _ => d.inv_raise_plain rfl) hx

theorem inv_reject {w : CodeWord} (h : s.Inv) (hw : ∀ b, w = .header b → b.length = 40) (hx : reject w s = .next t) : t.Inv := by
  cases w with
  | cmd c => exact inv_command h (fun _ d _ _ => d.inv_raise_plain rfl) hx
  | flags f => exact inv_command h (fun _ d _ _ => d.inv_raise_plain rfl) hx
  | header b =>
    obtain ⟨-, rfl⟩ := rejectHeader_next.mp hx
    exact (h.toDataOk.setHeaderBuffer (hw b rfl)).inv_raise_plain rfl

theorem pastWord_inv (h : s.Inv) : s.pastWord.Inv := by
  unfold State.pastWord
  split
  · exact Inv.outside h s.stream _ s.obs
  · exact Inv.outside h _ _ s.obs

theorem inv_runWord {w : CodeWord} (h : s.Inv) (hf : s.fetch = some w) (hx : runWord w s.pastWord = .next t) : t.Inv := by
  unfold runWord at hx
  split at hx
  case h_1 i hi => exact inv_exec (pastWord_inv h) (fun f hf => decode_informHeader_wf (hf ▸ hi)) hx
  case h_2 =>
    refine inv_reject (pastWord_inv h) ?_ hx
    rintro b rfl
    obtain ⟨-, -, hl, rfl, -⟩ := fetch_header hf
    simpa using hl

/-! ## Acts without a code word -/

theorem inv_runInput {i : Input} (h : s.Inv) (hx : runInput i s = .next t) : t.Inv := by
  cases i with
  | write reg v =>
    obtain ⟨hb, ⟨-, hv, rfl⟩ | ⟨-, hv, rfl⟩ | ⟨-, hv, rfl⟩⟩ := hostWrite_next.mp hx
    · exact Inv.withData h hb (h.toDataOk.writeKey hv) ⟨rfl, rfl, rfl, rfl, rfl, rfl, rfl, rfl⟩
    · exact Inv.withData h hb (h.toDataOk.writeOpiv hv) ⟨rfl, rfl, rfl, rfl, rfl, rfl, rfl, rfl⟩
    · exact Inv.withData h hb (h.toDataOk.writeIbuf hv) ⟨rfl, rfl, rfl, rfl, rfl, rfl, rfl, rfl⟩
  | read reg =>
    obtain ⟨r, v, -, -, rfl⟩ := hostRead_next.mp hx
    exact Inv.outside h s.stream s.inputs _
  | memRead sp a n =>
    obtain ⟨-, b, -, -, rfl⟩ := hostMemRead_next.mp hx
    exact Inv.outside h s.stream s.inputs _
  | memWrite sp a v =>
    obtain ⟨hb, -, hv, rfl⟩ := hostMemWrite_next.mp hx
    exact Inv.withData h hb (h.toDataOk.patchIbuf hv) ⟨rfl, rfl, rfl, rfl, rfl, rfl, rfl, rfl⟩
  | inspectResolve =>
    obtain ⟨-, rfl⟩ := inspectIdle_next.mp hx
    exact h
  | reset k =>
    cases hx
    exact Inv.ofReset h.params _ _ _
  | arrive b =>
    cases hx
    exact Inv.outside h _ s.inputs s.obs
  | srcOk =>
    obtain ⟨n, ho, hl, hp, rfl⟩ := answerSourceOk_next.mp hx
    obtain ⟨hout, -, -, hpos, hmax, -⟩ : s.out = some (.src (headerFields s.hbuf).plen.toNat) ∧ _ := by
      simpa only [State.WaitOk, hp] using h.waiting
    obtain rfl : n = (headerFields s.hbuf).plen.toNat := by simpa [ho] using hout
    have hlen := List.length_take_of_le hl
    exact inv_payloadArrived (Inv.outside h (s.stream.drop _) s.inputs s.obs) hp _ (hlen.symm ▸ hpos) (hlen.symm ▸ hmax)
  | srcFail d k =>
    obtain ⟨n, -, rfl⟩ := answerSourceFail_next.mp hx
    exact inv_sourceFailed (Inv.outside h _ s.inputs s.obs) d
  | ciphAnswer =>
    obtain ⟨key, iv, ct, ho, rfl⟩ := answerCipher_next.mp hx
    obtain ⟨hp, hl⟩ : s.phase = .ciphWait ∧ ct.length ≤ 2 ^ 32 - 1 := by
      simpa [ho] using out_phase h
    exact inv_cipherAnswered h hp _ (cbcDecrypt_length key iv ct ▸ hl)
  | dcmpAnswer =>
    obtain ⟨data, ho, rfl⟩ := answerDecompressor_next.mp hx
    have hp : s.phase = .dcmpWait := by simpa [ho] using out_phase h
    exact inv_decompressorAnswered h hp _

/-- Settles O35: each branch of a step, a fetched code word or an act without one, keeps the invariant. -/
theorem stepKeepsInvariant : Obligations.StepKeepsInvariant := by
  intro s t h hx
  obtain ⟨-, rfl⟩ | ⟨w, hf, hw⟩ | ⟨i, rest, -, -, hi⟩ := step_cases hx
  · exact h
  · exact inv_runWord h hf hw
  · exact inv_runInput (Inv.outside h s.stream rest s.obs) hi

/-- Settles O3: the reset state is reset with the default parameters. -/
theorem resetMeetsInvariant : Obligations.ResetMeetsInvariant :=
  Inv.ofReset (p := Params.default) (by decide) [] [] []

end Sys2Proof.Machine
end

section
/-! SUPPORT. What no step changes (R28, R29, R40, R44), by the frames of Laws/Frames.lean. -/

open Sys2Proof

namespace Sys2Proof.Machine

variable {s t : State}

/-! ## The frames and what is outside the block -/

theorem sameOperands_outside (s : State) : KeptByOutside (SameOperands s) := ⟨fun _ _ _ _ h => { h with }⟩

theorem sameHeader_outside (s : State) : KeptByOutside (SameHeader s) := ⟨fun _ _ _ _ h => { h with }⟩

theorem samePacket_outside (s : State) : KeptByOutside (SamePacket s) := ⟨fun _ _ _ _ h => { h with }⟩

theorem SameOperands.refl (s : State) : SameOperands s s := ⟨rfl, rfl, rfl, rfl, rfl⟩

theorem SameHeader.refl (s : State) : SameHeader s s := ⟨rfl, rfl, rfl⟩

theorem SamePacket.refl (s : State) : SamePacket s s := ⟨rfl, rfl, rfl⟩

theorem SameResult.refl (s : State) : SameResult s s := ⟨rfl, rfl, rfl⟩

/-- R40: the parameters are those of `s`. -/
def SameParams (s t : State) : Prop := t.par = s.par

theorem sameParams_control (s : State) : KeptByControl (SameParams s) :=
  ⟨fun _ h => h, fun _ _ h => h, fun _ h => h, fun _ _ h => h, fun _ _ _ h => h, fun _ _ h => h⟩

theorem sameParams_result (s : State) : KeptByResult (SameParams s) := ⟨fun _ h => h, fun _ h => h, fun _ _ h => h⟩

theorem sameParams_outside (s : State) : KeptByOutside (SameParams s) := ⟨fun _ _ _ _ h => h⟩

/-! ## The statements about every step -/

/-- Settles O37: only the operand writes and reset break the frame of the operands, and neither is the act. -/
theorem operandsChangeOnlyByHost : Obligations.OperandsChangeOnlyByHost := by
  intro s t hstep hact
  refine kept_step (sameOperands_control s) (sameOperands_outside s) (sameOperands_result s)
    (fun _ => ⟨fun _ h => { h with }, fun _ _ h => { h with }⟩) (fun _ _ h => { h with }) (fun _ _ _ _ h => { h with })
    ?write ?reset (SameOperands.refl s) hstep
  case write =>
    intro i rest hi hw
    rw [(hact i rest hi).1] at hw
    cases hw
  case reset =>
    intro k rest hi
    exact absurd rfl ((hact _ rest hi).2 k)

/-- Settles O38: a payload commits a Packet only where PKT_VALID = 0, by the invariant. -/
theorem packetImmutableOnceValid : Obligations.PacketImmutableOnceValid := by
  intro s t hinv hstep hvalid hact
  refine kept_step (samePacket_control s) (samePacket_outside s) (samePacket_result s)
    (fun _ => ⟨fun _ h => { h with }, fun _ _ h => { h with }⟩) ?decode ?payload
    (fun _ _ _ _ => ⟨fun _ _ h => { h with }, fun _ _ h => { h with }, fun _ _ h => { h with }, fun _ _ _ h => { h with }⟩)
    ?reset (SamePacket.refl s) hstep
  case decode =>
    rintro ⟨rest, hi⟩
    exact absurd hi (hact 0 rest).1
  case payload =>
    intro hp
    obtain ⟨-, -, hinvalid, -⟩ : _ ∧ _ ∧ s.status.pktValid = false ∧ _ := by simpa only [State.WaitOk, hp] using hinv.waiting
    rw [hvalid] at hinvalid
    cases hinvalid
  case reset =>
    intro k rest hi
    exact absurd hi (hact k rest).2

/-- Settles O39: only PARSE's own two updates and reset break the frame of the header group. -/
theorem headerGroupChangesOnlyByParse : Obligations.HeaderGroupChangesOnlyByParse := by
  intro s t hstep hact
  refine kept_step (sameHeader_control s) (sameHeader_outside s) (sameHeader_result s) ?parse
    (fun _ _ h => { h with }) (fun _ _ _ _ h => { h with })
    (fun _ _ _ _ => ⟨fun _ _ h => { h with }, fun _ _ h => { h with }, fun _ _ h => { h with }, fun _ _ _ h => { h with }⟩)
    ?reset (SameHeader.refl s) hstep
  case parse =>
    rintro ⟨rest, hi⟩
    exact absurd hi (hact 0 rest).1
  case reset =>
    intro k rest hi
    exact absurd hi (hact k rest).2

/-- Settles O40: every update keeps the parameters, reset included. -/
theorem parametersNeverChange : Obligations.ParametersNeverChange := fun s _ hstep =>
  kept_step (sameParams_control s) (sameParams_outside s) (sameParams_result s)
    (fun _ => ⟨fun _ h => h, fun _ _ h => h⟩) (fun _ _ h => h) (fun _ _ _ _ h => h)
    (fun _ _ _ _ => ⟨fun _ _ h => h, fun _ _ h => h, fun _ _ h => h, fun _ _ _ h => h⟩) (fun _ _ _ _ h => h) rfl hstep

/-! ## The readable bytes of the buffers -/

theorem SameOperands.peek (h : SameOperands s t) (a : Nat) : t.peek .ibuf a = s.peek .ibuf a := by
  simp only [State.peek, State.spaceBytes, h.ibuf, h.ilen]

theorem SamePacket.peek (h : SamePacket s t) (a : Nat) : t.peek .pbuf a = s.peek .pbuf a := by
  simp only [State.peek, State.spaceBytes, h.valid, h.pbuf, h.regs]

theorem SameResult.peek (h : SameResult s t) (a : Nat) : t.peek .rbuf a = s.peek .rbuf a := by
  simp only [State.peek, State.spaceBytes, h.valid, h.rbuf, h.rlen]

/-- Settles O55: the groups the instruction does not own are kept whole, and a byte is read from its group alone. -/
theorem commandsKeepOtherBuffers : Obligations.CommandsKeepOtherBuffers := by
  intro s t i hx
  refine ⟨?ibuf, ?pbuf, ?rbuf⟩
  case ibuf =>
    exact (kept_exec (sameOperands_control s) (fun _ _ => sameOperands_result s)
      (fun _ => ⟨fun _ h => { h with }, fun _ _ h => { h with }⟩) (fun _ _ h => { h with }) (SameOperands.refl s) hx).peek
  case pbuf =>
    intro hdecode
    exact (kept_exec (samePacket_control s) (fun _ _ => samePacket_result s)
      (fun _ => ⟨fun _ h => { h with }, fun _ _ h => { h with }⟩) (fun h => absurd h hdecode) (SamePacket.refl s) hx).peek
  case rbuf =>
    intro howner
    have hno : i ∉ [Instr.parse, .decode, .illegalOp0, .illegalOp6, .illegalOp7] → (∀ f, i ≠ .informHeader f) →
        KeptByResult (SameResult s) := fun h1 h2 => (howner.elim h1 fun ⟨f, hf⟩ => h2 f hf).elim
    exact (kept_exec (sameResult_control s) hno
      (fun _ => ⟨fun _ h => { h with }, fun _ _ h => { h with }⟩) (fun _ _ h => { h with }) (SameResult.refl s) hx).peek

/-! ## Reset, STATUS and the register numbers -/

/-- Settles O1: the fields by evaluation, and the reads refused because every valid bit is 0. -/
theorem resetLeavesSpecifiedValues : Obligations.ResetLeavesSpecifiedValues := by
  refine ⟨rfl, rfl, by decide, rfl, rfl, rfl, rfl, rfl, rfl, rfl, rfl, rfl, by decide, ?_⟩
  intro sp hsp a
  simp only [List.mem_cons, List.not_mem_nil, or_false] at hsp
  obtain rfl | rfl | rfl | rfl := hsp <;> rfl

theorem getLsbD_bitAt (b : Bool) {i : Nat} (hi : i < 8) (j : Nat) : (bitAt b i).getLsbD j = (b && decide (j = i)) := by
  cases b
  case false => simp [bitAt]
  case true =>
    have : bitAt true i = BitVec.twoPow 8 i := (BitVec.twoPow_eq 8 i).symm
    simp [this, BitVec.getLsbD_twoPow, hi, eq_comm]

/-- R22: a bit of STATUS is the status bit placed there. -/
theorem Status.getLsbD_word (t : Status) (j : Nat) :
    t.word.getLsbD j =
      (t.busy && decide (j = 0) || t.done && decide (j = 1) || t.err && decide (j = 2) || t.hdrValid && decide (j = 3) ||
        t.pktValid && decide (j = 4) || t.resValid && decide (j = 5)) := by
  simp only [Status.word, BitVec.getLsbD_or, getLsbD_bitAt, Nat.reduceLT]

/-- Settles O48: each status bit is placed at its own number and no other is set. -/
theorem statusBitsAsLaidOut : Obligations.StatusBitsAsLaidOut := by
  intro t
  simp only [Status.getLsbD_word]
  simp

/-- Settles O50: the lookup inverts the numbering, and an unassigned number has no register to access. -/
theorem registerNumbersNameRegisters : Obligations.RegisterNumbersNameRegisters := by
  refine ⟨rfl, rfl, rfl, rfl, rfl, Reg.ofNumber_number, ?_⟩
  intro n hn s
  have hnone := Reg.ofNumber_eq_none.mpr hn
  exact ⟨by simp [hostRead, hnone], fun hb v => by simp [hostWrite, hb, hnone]⟩

end Sys2Proof.Machine
end

section
/-! SUPPORT. What is without value influences nothing (R41, R43, U11): every operation takes two states that agree
on all that a rule reads to two such states. -/

open Sys2Proof

namespace Sys2Proof.Machine

variable {s t : State}

/-! ## Agreement -/

/-- R41: two states agree on everything but the groups whose valid bit is 0, WBUF, and HBUF outside PAY_READ. -/
structure SameVisible (s t : State) : Prop where
  status : t.status = s.status
  errKind : t.errKind = s.errKind
  errReason : t.errReason = s.errReason
  errInfo : t.errInfo = s.errInfo
  phase : t.phase = s.phase
  oper : t.oper = s.oper
  key : t.key = s.key
  klen : t.klen = s.klen
  opiv : t.opiv = s.opiv
  ibuf : t.ibuf = s.ibuf
  ilen : t.ilen = s.ilen
  rlen : t.rlen = s.rlen
  out : t.out = s.out
  par : t.par = s.par
  stream : t.stream = s.stream
  inputs : t.inputs = s.inputs
  obs : t.obs = s.obs
  hfMagic : s.status.hdrValid = true → t.hfMagic = s.hfMagic
  hf : s.status.hdrValid = true → t.hf = s.hf
  pkt : s.status.pktValid = true → t.pkt = s.pkt
  pbuf : s.status.pktValid = true → t.pbuf = s.pbuf
  rbuf : s.status.resValid = true → t.rbuf = s.rbuf
  hbuf : s.phase = .payRead → t.hbuf = s.hbuf

theorem sameVisible_of_visible_eq (h : s.visible = t.visible) : SameVisible s t := by
  have status : t.status = s.status := (congrArg State.status h).symm
  have phase : t.phase = s.phase := (congrArg State.phase h).symm
  have field {α : Type} (f : State → α) : f t.visible = f s.visible := (congrArg f h).symm
  exact
    { status, phase
      errKind := field State.errKind, errReason := field State.errReason, errInfo := field State.errInfo
      oper := field State.oper, key := field State.key, klen := field State.klen, opiv := field State.opiv
      ibuf := field State.ibuf, ilen := field State.ilen, rlen := field State.rlen, out := field State.out
      par := field State.par, stream := field State.stream, inputs := field State.inputs, obs := field State.obs
      hfMagic := fun hv => by simpa [State.visible, status, hv] using field State.hfMagic
      hf := fun hv => by simpa [State.visible, status, hv] using field State.hf
      pkt := fun hv => by simpa [State.visible, status, hv] using field State.pkt
      pbuf := fun hv => by simpa [State.visible, status, hv] using field State.pbuf
      rbuf := fun hv => by simpa [State.visible, status, hv] using field State.rbuf
      hbuf := fun hp => by simpa [State.visible, phase, hp] using field State.hbuf }

theorem SameVisible.visible_eq (h : SameVisible s t) : s.visible = t.visible := by
  have group {α : Type} {b : Bool} {x y z : α} (hxy : b = true → y = x) :
      (if b = true then x else z) = if b = true then y else z := by
    split
    case isTrue hb => exact (hxy hb).symm
    case isFalse => rfl
  have hbuf : (if s.phase = .payRead then s.hbuf else []) = if s.phase = .payRead then t.hbuf else [] := by
    split
    case isTrue hp => exact (h.hbuf hp).symm
    case isFalse => rfl
  simp only [State.visible, h.status, h.errKind, h.errReason, h.errInfo, h.phase, h.oper, h.key, h.klen, h.opiv, h.ibuf,
    h.ilen, h.rlen, h.out, h.par, h.stream, h.inputs, h.obs, group h.hfMagic, group h.hf, group h.pkt, group h.pbuf,
    group h.rbuf, hbuf]

/-- Two outcomes agree: both are a next state, and these agree, or both are refused for the same reason. -/
inductive SameOutcome : Host.Outcome State Fault Refusal → Host.Outcome State Fault Refusal → Prop where
  | next {s t : State} (h : SameVisible s t) : SameOutcome (.next s) (.next t)
  | refused (r : Refusal) : SameOutcome (.refused r) (.refused r)

/-! ## The updates -/

namespace SameVisible

theorem withStream (h : SameVisible s t) (b : Bytes) : SameVisible { s with stream := b } { t with stream := b } :=
  { h with stream := rfl }

theorem withInputs (h : SameVisible s t) (i : List Input) : SameVisible { s with inputs := i } { t with inputs := i } :=
  { h with inputs := rfl }

theorem observe (h : SameVisible s t) (o : Obs) :
    SameVisible { s with obs := o :: s.obs } { t with obs := o :: t.obs } :=
  { h with obs := by simp [h.obs] }

theorem accept (h : SameVisible s t) : SameVisible s.accept t.accept :=
  { h with status := by simp [h.status], errKind := rfl, errReason := rfl, errInfo := rfl }

theorem setOper (h : SameVisible s t) (o : Option Oper) : SameVisible (s.setOper o) (t.setOper o) :=
  { h with oper := rfl }

theorem complete (h : SameVisible s t) : SameVisible s.complete t.complete :=
  { h with status := by simp [h.status], phase := rfl, oper := rfl, out := rfl, hbuf := nofun }

theorem raise (h : SameVisible s t) (e : Err) : SameVisible (s.raise e) (t.raise e) :=
  { h with
    status := by simp [h.status], errKind := rfl, errReason := rfl, errInfo := rfl
    phase := rfl, oper := rfl, out := rfl, hbuf := nofun }

theorem request (h : SameVisible s t) {r : Request} {p : Phase} (hp : p ≠ .payRead) :
    SameVisible (s.request r p) (t.request r p) :=
  { h with phase := rfl, out := rfl, obs := by simp [h.obs], hbuf := fun h => absurd h hp }

theorem clearHeader (h : SameVisible s t) : SameVisible s.clearHeader t.clearHeader :=
  { h with status := by simp [h.status], hfMagic := nofun, hf := nofun }

theorem commitHeader (h : SameVisible s t) (f : Header) : SameVisible (s.commitHeader f) (t.commitHeader f) :=
  { h with status := by simp [h.status], hfMagic := fun _ => rfl, hf := fun _ => rfl }

theorem clearPacket (h : SameVisible s t) : SameVisible s.clearPacket t.clearPacket :=
  { h with status := by simp [h.status], pkt := nofun, pbuf := nofun }

theorem commitPacket (h : SameVisible s t) (f : Header) (p : Bytes) :
    SameVisible (s.commitPacket f p) (t.commitPacket f p) :=
  { h with status := by simp [h.status], pkt := fun _ => rfl, pbuf := fun _ => rfl }

theorem clearResult (h : SameVisible s t) : SameVisible s.clearResult t.clearResult :=
  { h with status := by simp [h.status], rlen := rfl, rbuf := nofun }

theorem commitResult (h : SameVisible s t) (hw : t.wbuf = s.wbuf) : SameVisible s.commitResult t.commitResult :=
  { h with status := by simp [h.status], rlen := by simp [hw], rbuf := fun _ => hw }

theorem setWork (h : SameVisible s t) (b c : Bytes) : SameVisible (s.setWork b) (t.setWork c) := { h with }

theorem setHeaderBuffer (h : SameVisible s t) (b : Bytes) : SameVisible (s.setHeaderBuffer b) (t.setHeaderBuffer b) :=
  { h with hbuf := fun _ => rfl }

theorem writeKey (h : SameVisible s t) (k : Bytes) : SameVisible (s.writeKey k) (t.writeKey k) :=
  { h with key := rfl, klen := rfl }

theorem writeOpiv (h : SameVisible s t) (v : Bytes) : SameVisible (s.writeOpiv v) (t.writeOpiv v) :=
  { h with opiv := rfl }

theorem writeIbuf (h : SameVisible s t) (b : Bytes) : SameVisible (s.writeIbuf b) (t.writeIbuf b) :=
  { h with ibuf := rfl, ilen := rfl }

theorem patchIbuf (h : SameVisible s t) (a : Nat) (v : Bytes) : SameVisible (s.patchIbuf a v) (t.patchIbuf a v) :=
  { h with ibuf := by simp [h.ibuf] }

/-! ## The stages, on equal working values -/

theorem finishWork (h : SameVisible s t) (hw : t.wbuf = s.wbuf) : SameVisible s.finishWork t.finishWork :=
  (h.commitResult hw).complete

theorem startDecrypt (h : SameVisible s t) (hw : t.wbuf = s.wbuf) (key iv : Bytes) :
    SameVisible (s.startDecrypt key iv) (t.startDecrypt key iv) := by
  unfold State.startDecrypt
  rw [hw]
  split
  · exact h.raise _
  · split
    · exact h.raise _
    · exact h.request (by decide)

theorem snappyStage (h : SameVisible s t) (hw : t.wbuf = s.wbuf) : SameVisible s.snappyStage t.snappyStage := by
  unfold State.snappyStage
  rw [hw]
  split
  · exact h.raise _
  · exact h.request (by decide)

theorem afterDecrypt (h : SameVisible s t) (hw : t.wbuf = s.wbuf) (hp : s.status.pktValid = true) :
    SameVisible s.afterDecrypt t.afterDecrypt := by
  unfold State.afterDecrypt
  rw [h.pkt hp]
  split
  · exact h.raise _
  · split
    · exact h.snappyStage hw
    · exact h.finishWork hw

theorem decryptStage (h : SameVisible s t) (hw : t.wbuf = s.wbuf) (hp : s.status.pktValid = true) :
    SameVisible s.decryptStage t.decryptStage := by
  unfold State.decryptStage
  rw [h.key, h.pkt hp]
  exact h.startDecrypt hw _ _

theorem startResolve (h : SameVisible s t) : SameVisible s.startResolve t.startResolve :=
  h.clearResult.setWork _ _

/-! ## The commands -/

theorem command (h : SameVisible s t) (o : Option Oper) {body : State → State}
    (hbody : ∀ {u v : State}, SameVisible u v → SameVisible (body u) (body v)) :
    SameOutcome (s.command o body) (t.command o body) := by
  unfold State.command
  rw [h.status]
  split
  · exact .refused _
  · exact .next (hbody (h.accept.setOper o))

theorem parseBody (h : SameVisible s t) : SameVisible s.parseBody t.parseBody := by
  unfold State.parseBody
  rw [h.ilen, h.ibuf]
  split
  · exact h.raise _
  · split
    · exact h.clearHeader.raise _
    · exact (h.clearHeader.commitHeader _).complete

theorem decodeBody (h : SameVisible s t) : SameVisible s.decodeBody t.decodeBody :=
  h.clearPacket.request (by decide)

theorem decryptBody (h : SameVisible s t) : SameVisible s.decryptBody t.decryptBody := by
  unfold State.decryptBody
  rw [h.key, h.opiv, h.ibuf]
  exact (h.clearResult.setWork _ _).startDecrypt rfl _ _

theorem unpadBody (h : SameVisible s t) : SameVisible s.unpadBody t.unpadBody := by
  unfold State.unpadBody
  rw [h.ibuf]
  split
  · exact (h.clearResult.setWork _ _).raise _
  · exact ((h.clearResult.setWork _ _).setWork _ _).finishWork rfl

theorem resolveBody (h : SameVisible s t) : SameVisible s.resolveBody t.resolveBody := by
  unfold State.resolveBody
  rw [h.status]
  split
  case isFalse => exact h.raise _
  case isTrue hp =>
    rw [h.pkt hp]
    split
    · exact h.startResolve.decryptStage (h.pbuf hp) hp
    · exact h.startResolve.afterDecrypt (h.pbuf hp) hp

theorem secondLevel (h : SameVisible s t) (k : BitVec 3) {stages : State → State}
    (hstages : ∀ {u v : State}, SameVisible u v → v.wbuf = u.wbuf → u.status.pktValid = true → SameVisible (stages u) (stages v)) :
    SameOutcome (s.secondLevel k stages) (t.secondLevel k stages) := by
  have hbody {u v : State} (h : SameVisible u v) :
      SameVisible (if u.status.pktValid then stages u.startResolve else u.raise .noPacket)
        (if v.status.pktValid then stages v.startResolve else v.raise .noPacket) := by
    rw [h.status]
    split
    case isTrue hp => exact hstages h.startResolve (h.pbuf hp) hp
    case isFalse => exact h.raise _
  have hflags : s.status.pktValid = true → t.pkt.flags = s.pkt.flags := fun hp => congrArg _ (h.pkt hp)
  have hheld : (t.status.busy = false ∧ t.status.pktValid = true ∧ flagsClass t.pkt.flags ≠ k) ↔
      (s.status.busy = false ∧ s.status.pktValid = true ∧ flagsClass s.pkt.flags ≠ k) := by
    rw [h.status]
    exact and_congr_right fun _ => and_congr_right fun hp => by rw [hflags hp]
  unfold State.secondLevel
  simp only [hheld]
  split
  · exact .refused _
  · exact h.command _ hbody

theorem illegalCommand (h : SameVisible s t) : SameOutcome (illegalCommand s) (illegalCommand t) :=
  h.command none fun h => h.raise _

/-! ## The header word -/

theorem awaitsHeader (h : SameVisible s t) : t.awaitsHeader = s.awaitsHeader := by
  rw [State.awaitsHeader, h.phase, h.out, State.awaitsHeader]

theorem execInformHeader (h : SameVisible s t) (f : Header) : SameOutcome (execInformHeader f s) (execInformHeader f t) := by
  unfold Machine.execInformHeader State.frameHeader
  rw [h.awaitsHeader]
  have hb := h.setHeaderBuffer (encodeHeader f)
  split
  case isFalse => exact .refused _
  case isTrue =>
    refine .next ?_
    rw [hb.par]
    split
    · exact hb.raise _
    · split
      · exact hb.raise _
      · exact { hb with phase := rfl, out := rfl, obs := by simp [h.obs], hbuf := fun _ => rfl }

theorem rejectHeader (h : SameVisible s t) (b : Bytes) : SameOutcome (rejectHeader b s) (rejectHeader b t) := by
  unfold Machine.rejectHeader
  rw [h.awaitsHeader]
  split
  · exact .next ((h.setHeaderBuffer b).raise _)
  · exact .refused _

/-! ## One instruction, one code word -/

theorem exec (h : SameVisible s t) (i : Instr) : SameOutcome (exec i s) (exec i t) := by
  cases i
  case parse => exact h.command _ parseBody
  case decode => exact h.command _ decodeBody
  case decrypt => exact h.command _ decryptBody
  case unpad => exact h.command _ unpadBody
  case resolve => exact h.command _ resolveBody
  case illegalOp0 | illegalOp6 | illegalOp7 => exact h.illegalCommand
  case informHeader f => exact h.execInformHeader f
  case resolveF0 => exact h.secondLevel _ fun h hw _ => h.finishWork hw
  case resolveF2 | resolveF6 => exact h.secondLevel _ fun h _ _ => h.raise _
  case resolveF4 => exact h.secondLevel _ fun h hw _ => h.snappyStage hw
  case resolveF1 | resolveF3 | resolveF5 | resolveF7 => exact h.secondLevel _ decryptStage

theorem reject (h : SameVisible s t) (w : CodeWord) : SameOutcome (reject w s) (reject w t) := by
  cases w with
  | cmd | flags => exact h.illegalCommand
  | header b => exact h.rejectHeader b

theorem runWord (h : SameVisible s t) (w : CodeWord) : SameOutcome (runWord w s) (runWord w t) := by
  unfold Machine.runWord
  split
  · exact h.exec _
  · exact h.reject w

theorem issued (h : SameVisible s t) : t.issued = s.issued := by
  rw [State.issued, h.inputs, h.status, State.issued]

theorem commandWord (h : SameVisible s t) (c : BitVec 8) : t.commandWord c = s.commandWord c := by
  unfold State.commandWord
  rw [h.status]
  split
  case isTrue hc => rw [h.pkt hc.2]
  case isFalse => rfl

theorem fetch (h : SameVisible s t) : t.fetch = s.fetch := by
  have hdelivered : t.delivered = s.delivered := by
    rw [State.delivered, h.inputs, h.awaitsHeader, h.stream, State.delivered]
  have hword : t.commandWord = s.commandWord := funext h.commandWord
  rw [State.fetch, h.issued, hword, hdelivered, State.fetch]

theorem pastWord (h : SameVisible s t) : SameVisible s.pastWord t.pastWord := by
  unfold State.pastWord
  rw [h.issued, h.inputs]
  split
  · exact h.withInputs _
  · rw [h.stream]
    exact (h.withInputs s.inputs.tail).withStream (s.stream.drop Config.headerLen)

/-! ## Acts without a code word -/

theorem regValue (h : SameVisible s t) (r : Reg) : t.regValue r = s.regValue r := by
  have valid {b : Bool} {x y : Value} (hxy : b = true → y = x) : whenValid b y = whenValid b x := by
    cases b
    case false => rfl
    case true => rw [hxy rfl]
  cases r <;> simp only [State.regValue, h.status, h.errKind, h.errReason, h.errInfo, h.klen, h.opiv, h.ilen, h.ibuf, h.rlen]
  case hfMagic => exact valid fun hv => by rw [h.hfMagic hv]
  case hfPver | hfDevid | hfFlags | hfIv | hfPlver | hfPlen => exact valid fun hv => by rw [h.hf hv]
  case pktPver | pktPlver | pktDevid | pktFlags | pktIv | pktPlen => exact valid fun hv => by rw [h.pkt hv]
  case pbuf => exact valid fun hv => by rw [h.pbuf hv]
  case rbuf => exact valid fun hv => by rw [h.rbuf hv]

theorem hostRead (h : SameVisible s t) (n : BitVec 8) : SameOutcome (hostRead n s) (hostRead n t) := by
  have hread (r : Reg) : t.readReg r = s.readReg r := by rw [State.readReg, h.status, h.regValue, State.readReg]
  unfold Machine.hostRead
  simp only [hread]
  split
  · exact .refused _
  · split
    · exact .next (h.observe _)
    · exact .refused _

theorem writeReg (h : SameVisible s t) (r : Reg) (v : Bytes) : SameOutcome (s.writeReg r v) (t.writeReg r v) := by
  cases r <;> simp only [State.writeReg, h.par]
  case key =>
    split
    · exact .refused _
    · exact .next (h.writeKey v)
  case opiv =>
    split
    · exact .next (h.writeOpiv v)
    · exact .refused _
  case ibuf =>
    split
    · exact .refused _
    · exact .next (h.writeIbuf v)
  all_goals exact .refused _

theorem hostWrite (h : SameVisible s t) (n : BitVec 8) (v : Bytes) : SameOutcome (hostWrite n v s) (hostWrite n v t) := by
  unfold Machine.hostWrite
  rw [h.status]
  split
  · exact .refused _
  · split
    · exact .refused _
    · exact h.writeReg _ v

theorem spaceBytes (h : SameVisible s t) (sp : Space) : t.spaceBytes sp = s.spaceBytes sp := by
  cases sp <;> simp only [State.spaceBytes, h.status, h.ibuf, h.ilen, h.rlen]
  case pbuf =>
    split
    case isTrue hv => rw [h.pbuf hv, h.pkt hv]
    case isFalse => rfl
  case rbuf =>
    split
    case isTrue hv => rw [h.rbuf hv]
    case isFalse => rfl

theorem hostMemRead (h : SameVisible s t) (sp : Space) (a n : Nat) :
    SameOutcome (hostMemRead sp a n s) (hostMemRead sp a n t) := by
  unfold Machine.hostMemRead
  rw [h.status, h.spaceBytes]
  split
  · exact .refused _
  · split
    · exact .refused _
    · split
      · simpa only [h.status] using SameOutcome.next (h.observe _)
      · exact .refused _

theorem hostMemWrite (h : SameVisible s t) (sp : Space) (a : Nat) (v : Bytes) :
    SameOutcome (hostMemWrite sp a v s) (hostMemWrite sp a v t) := by
  unfold Machine.hostMemWrite
  rw [h.status, h.ilen]
  split
  · exact .refused _
  · cases sp
    case ibuf =>
      dsimp only
      split
      · exact .next (h.patchIbuf a v)
      · exact .refused _
    all_goals exact .refused _

theorem inspectIdle (h : SameVisible s t) : SameOutcome (inspectIdle s) (inspectIdle t) := by
  unfold Machine.inspectIdle
  rw [h.status]
  split
  · exact .refused _
  · exact .next h

theorem applyReset (h : SameVisible s t) (k : Nat) : SameVisible (s.applyReset k) (t.applyReset k) := by
  have hstream : t.abandonedStream k = s.abandonedStream k := by
    rw [State.abandonedStream, h.out, h.stream, State.abandonedStream]
  unfold State.applyReset
  rw [h.par, hstream, h.inputs, h.obs]
  exact sameVisible_of_visible_eq rfl

theorem payloadArrived (h : SameVisible s t) (hp : s.phase = .payRead) (p : Bytes) :
    SameVisible (payloadArrived p s) (payloadArrived p t) := by
  unfold Machine.payloadArrived
  rw [h.hbuf hp]
  exact (h.commitPacket _ p).complete

theorem answerSourceOk (h : SameVisible s t) : SameOutcome (answerSourceOk s) (answerSourceOk t) := by
  unfold Machine.answerSourceOk
  rw [h.out, h.stream, h.phase]
  split
  case h_1 n _ =>
    split
    · exact .refused _
    · split
      case isTrue hp =>
        have hs := (h.withStream (s.stream.drop n)).payloadArrived hp (s.stream.take n)
        simpa only [h.out, h.phase] using SameOutcome.next hs
      case isFalse => exact .refused _
  all_goals exact .refused _

theorem sourceFailed (h : SameVisible s t) (d : Nat) : SameVisible (sourceFailed d s) (sourceFailed d t) := by
  unfold Machine.sourceFailed
  rw [h.phase, h.par]
  split <;> exact h.raise _

theorem answerSourceFail (h : SameVisible s t) (d k : Nat) :
    SameOutcome (answerSourceFail d k s) (answerSourceFail d k t) := by
  unfold Machine.answerSourceFail
  rw [h.out, h.stream]
  split
  case h_1 => simpa only [h.out] using SameOutcome.next ((h.withStream (s.stream.drop k)).sourceFailed d)
  all_goals exact .refused _

/-- The later stages read the Packet, which a RESOLVE in CIPH_WAIT holds (R170). -/
theorem cipherAnswered (h : SameVisible s t) (hp : s.resolving = true → s.status.pktValid = true) (d : Bytes) :
    SameVisible (cipherAnswered d s) (cipherAnswered d t) := by
  have hresolving : t.resolving = s.resolving := by rw [State.resolving, h.oper, State.resolving]
  unfold Machine.cipherAnswered
  rw [hresolving]
  split
  · exact (h.setWork _ _).raise _
  · have hw (u : Bytes) := (h.setWork d d).setWork u u
    split
    case isTrue hr => exact (hw _).afterDecrypt rfl (hp hr)
    case isFalse => exact (hw _).finishWork rfl

theorem answerCipher (h : SameVisible s t) (hs : s.Inv) : SameOutcome (answerCipher s) (answerCipher t) := by
  unfold Machine.answerCipher
  rw [h.out]
  split
  case h_1 key iv ct ho =>
    refine .next (h.cipherAnswered ?_ _)
    obtain ⟨hphase, -⟩ : s.phase = .ciphWait ∧ ct.length ≤ 2 ^ 32 - 1 := by simpa [ho] using out_phase hs
    intro hr
    have hoper : s.oper = some .resolve := by simpa [State.resolving] using hr
    obtain ⟨-, -, ⟨hdecrypt, -⟩ | ⟨-, hpkt, -⟩⟩ := by simpa only [State.WaitOk, hphase] using hs.waiting
    · rw [hoper] at hdecrypt
      cases hdecrypt
    · exact hpkt
  all_goals exact .refused _

theorem decompressorAnswered (h : SameVisible s t) (a : DcmpAnswer) :
    SameVisible (decompressorAnswered a s) (decompressorAnswered a t) := by
  unfold Machine.decompressorAnswered
  rw [h.par]
  split
  · exact h.raise _
  · split
    · exact h.raise _
    · exact (h.setWork _ _).finishWork rfl

theorem answerDecompressor (h : SameVisible s t) : SameOutcome (answerDecompressor s) (answerDecompressor t) := by
  unfold Machine.answerDecompressor
  rw [h.out]
  split
  case h_1 => exact .next (h.decompressorAnswered _)
  all_goals exact .refused _

theorem runInput (h : SameVisible s t) (hs : s.Inv) (i : Input) : SameOutcome (runInput i s) (runInput i t) := by
  cases i with
  | write reg v => exact h.hostWrite reg v
  | read reg => exact h.hostRead reg
  | memRead sp a n => exact h.hostMemRead sp a n
  | memWrite sp a v => exact h.hostMemWrite sp a v
  | inspectResolve => exact h.inspectIdle
  | reset k => exact .next (h.applyReset k)
  | arrive b => exact .next { h with stream := by rw [h.stream] }
  | srcOk => exact h.answerSourceOk
  | srcFail d k => exact h.answerSourceFail d k
  | ciphAnswer => exact h.answerCipher hs
  | dcmpAnswer => exact h.answerDecompressor

theorem step (h : SameVisible s t) (hs : s.Inv) : SameOutcome (step s) (step t) := by
  unfold Machine.step stepInput
  rw [h.fetch, h.inputs]
  split
  · exact h.pastWord.runWord _
  · split
    · exact .next h
    · rename_i rest _
      exact (h.withInputs rest).runInput (Inv.outside hs s.stream rest s.obs) _

end SameVisible

/-- Settles O36: agreement is kept by a step, and it is equality of what is visible. -/
theorem unreadableContentsInfluenceNothing : Obligations.UnreadableContentsInfluenceNothing := by
  intro s t hs _ hvisible
  have hstep := (sameVisible_of_visible_eq hvisible).step hs
  generalize step s = a, step t = b at hstep ⊢
  cases hstep with
  | next h => exact h.visible_eq
  | refused r => rfl

end Sys2Proof.Machine
end

section
/-! SUPPORT. Where an act has a step (R38, R190, R191, R197, R230). -/

open Sys2Proof

namespace Sys2Proof.Machine

variable {s : State} {rest : List Input}

/-- An outcome is a next state. -/
def Steps (o : Host.Outcome State Fault Refusal) : Prop := ∃ t, o = .next t

/-! ## Code words (R192, R197) -/

theorem command_steps {o : Option Oper} {body : State → State} : Steps (s.command o body) ↔ s.status.busy = false := by
  simp [Steps, command_next]

theorem runWord_of_ok {w : CodeWord} {i : Instr} (h : decode w = .ok i) : runWord w s = exec i s := by
  simp [runWord, h]

theorem runWord_of_error {w : CodeWord} {e : DecodeError} (h : decode w = .error e) : runWord w s = reject w s := by
  simp [runWord, h]

/-- R97 to R99: every command word, the illegal ones included, is one command. -/
theorem runWord_cmd_eq_command (c : BitVec 8) (s : State) : ∃ o body, runWord (.cmd c) s = s.command o body := by
  cases hd : decode (.cmd c) with
  | error e =>
    rw [runWord_of_error hd]
    exact ⟨_, _, rfl⟩
  | ok i =>
    rw [runWord_of_ok hd]
    simp only [decode, decodeCommand] at hd
    split at hd
    · cases hd
    · split at hd <;> cases hd <;> exact ⟨_, _, rfl⟩

/-- R101: a flags word is the second-level opcode of its class. -/
theorem exec_decodeFlags_eq_secondLevel (f : BitVec 16) (s : State) :
    ∃ stages, exec (decodeFlags f) s = s.secondLevel (flagsClass f) stages := by
  unfold decodeFlags flagsClass
  cases isEncrypted f <;> cases isCompressed f <;> cases isSnappy f <;> exact ⟨_, rfl⟩

theorem runWord_commandWord_steps (c : BitVec 8) : Steps (runWord (s.commandWord c) s) ↔ s.status.busy = false := by
  unfold State.commandWord
  split
  case isFalse =>
    obtain ⟨o, body, hc⟩ := runWord_cmd_eq_command c s
    rw [hc, command_steps]
  case isTrue h =>
    obtain ⟨stages, hs⟩ := exec_decodeFlags_eq_secondLevel s.pkt.flags s
    have hrun : runWord (.flags s.pkt.flags) s = s.secondLevel (flagsClass s.pkt.flags) stages := hs
    simp [hrun, Steps, secondLevel_next, h.2]

/-- R120, R130: a header word, valid or not, is taken where it is awaited. -/
theorem runWord_header_steps (b : Bytes) : Steps (runWord (.header b) s) ↔ s.awaitsHeader = true := by
  cases hd : decode (.header b) with
  | error e => simp [runWord_of_error hd, Steps, reject, rejectHeader_next]
  | ok i =>
    rw [runWord_of_ok hd]
    simp only [decode, decodeHeader] at hd
    split at hd
    · cases hd
    · split at hd <;> cases hd
      simp [Steps, exec, execInformHeader_next]

/-! ## Register accesses (R38) -/

theorem whenValid_ok {b : Bool} {x : Value} : (∃ v, whenValid b x = .ok v) ↔ b = true := by
  cases b <;> simp [whenValid]

theorem regValue_ok (r : Reg) : (∃ v, s.regValue r = .ok v) ↔ s.mayRead r = true := by
  cases r <;> simp [State.regValue, State.mayRead, whenValid_ok]

theorem readReg_ok (r : Reg) :
    (∃ v, s.readReg r = .ok v) ↔ r = .status ∨ (s.status.busy = false ∧ s.mayRead r = true) := by
  by_cases hr : r = .status
  · subst hr
    simp [State.readReg, State.regValue]
  · cases hb : s.status.busy
    case false => simp [readReg_of_idle hb, regValue_ok, hr]
    case true => simp [readReg_of_busy hb hr, hr]

theorem hostRead_steps (n : BitVec 8) : Steps (hostRead n s) ↔ s.admits (.read n) = true := by
  have hsteps : Steps (hostRead n s) ↔ ∃ r, Reg.ofNumber n = some r ∧ ∃ v, s.readReg r = .ok v := by
    simp [Steps, hostRead_next]
  rw [hsteps]
  simp only [readReg_ok, State.admits]
  cases Reg.ofNumber n <;> simp

theorem hostWrite_steps {n : BitVec 8} {v : Bytes} (hcmd : ¬(n = 0#8 ∧ v.length = 1)) :
    Steps (hostWrite n v s) ↔ s.admits (.write n v) = true := by
  have hcmd : (n == 0x00#8 && v.length == 1) = false := by simpa using hcmd
  simp only [Steps, hostWrite_next, State.admits, hcmd]
  simp [exists_or, or_assoc]

/-! ## Buffer accesses (R42) -/

theorem spaceBytes_ibuf (h : s.Inv) : s.spaceBytes .ibuf = .ok s.ibuf := by
  simp [State.spaceBytes, h.ibufLength]

theorem spaceBytes_pbuf (h : s.Inv) (hp : s.status.pktValid = true) : s.spaceBytes .pbuf = .ok s.pbuf := by
  simp [State.spaceBytes, hp, (h.packet hp).1]

theorem spaceBytes_rbuf (h : s.Inv) (hr : s.status.resValid = true) : s.spaceBytes .rbuf = .ok s.rbuf := by
  simp [State.spaceBytes, hr, h.result hr]

theorem hostMemRead_steps (h : s.Inv) (sp : Space) (a n : Nat) :
    Steps (hostMemRead sp a n s) ↔ s.admits (.memRead sp a n) = true := by
  have hsteps : Steps (hostMemRead sp a n s) ↔ s.status.busy = false ∧ ∃ b, s.spaceBytes sp = .ok b ∧ a + n ≤ b.length := by
    simp [Steps, hostMemRead_next]
  rw [hsteps]
  cases sp
  case ibuf => simp [spaceBytes_ibuf h, State.admits, h.ibufLength]
  case pbuf =>
    cases hp : s.status.pktValid
    case false => simp [State.spaceBytes, State.admits, hp]
    case true => simp [spaceBytes_pbuf h hp, State.admits, hp, (h.packet hp).1]
  case rbuf =>
    cases hr : s.status.resValid
    case false => simp [State.spaceBytes, State.admits, hr]
    case true => simp [spaceBytes_rbuf h hr, State.admits, hr, h.result hr]
  case key | wbuf | hbuf => simp [State.spaceBytes, State.admits]

theorem hostMemWrite_steps (sp : Space) (a : Nat) (v : Bytes) :
    Steps (hostMemWrite sp a v s) ↔ s.admits (.memWrite sp a v) = true := by
  cases sp <;> simp [Steps, hostMemWrite_next, State.admits]

/-! ## The step of each act that can carry a code word -/

theorem step_write_steps {n : BitVec 8} {v : Bytes} (hi : s.inputs = .write n v :: rest) :
    Steps (step s) ↔ s.admits (.write n v) = true := by
  by_cases hcmd : n = 0#8 ∧ v.length = 1
  · obtain ⟨rfl, hv⟩ := hcmd
    obtain ⟨c, rfl⟩ := List.length_eq_one_iff.mp hv
    rw [step_command hi]
    exact (runWord_commandWord_steps (s := { s with inputs := rest }) c).trans (by simp [State.admits])
  · rw [step_write hi hcmd]
    exact hostWrite_steps hcmd

theorem step_inspectResolve_steps (hi : s.inputs = .inspectResolve :: rest) :
    Steps (step s) ↔ s.admits .inspectResolve = true := by
  have hadmits : s.admits .inspectResolve = true ↔ s.status.busy = false := by simp [State.admits]
  rw [hadmits]
  cases hd : s.status.done && !s.status.err
  case true =>
    have hstep : step s = runWord (s.commandWord 5#8) { s with inputs := rest } := by
      simp [step, stepInput, State.fetch, State.pastWord, State.issued, hi, hd]
    rw [hstep]
    exact runWord_commandWord_steps (s := { s with inputs := rest }) 5#8
  case false =>
    rw [step_without_word hi (by simp [State.fetch, State.issued, State.delivered, hi, hd])]
    simp [runInput, Steps, inspectIdle_next]

theorem step_srcOk_steps (h : s.Inv) (hi : s.inputs = .srcOk :: rest) : Steps (step s) ↔ s.admits .srcOk = true := by
  by_cases hp : s.phase = .hdrRead
  case neg =>
    rw [step_srcOk_noHeader hi hp]
    simp only [Steps, answerSourceOk_next, State.admits, State.sourceReady]
    obtain ⟨-, ho⟩ | ⟨hp', -⟩ | ⟨n, hp', ho⟩ | ⟨_, _, _, -, ho, -⟩ | ⟨_, -, ho⟩ := out_phase h
    · simp [ho]
    · exact absurd hp' hp
    · simp [ho, hp']
    · simp [ho]
    · simp [ho]
  case pos =>
    have ho : s.out = some (.src 40) := by simpa [hp] using out_phase h
    by_cases hl : 40 ≤ s.stream.length
    · rw [step_srcOk_hdr hi hp ho hl, runWord_header_steps]
      simp [State.awaitsHeader, hp, ho, Config.headerLen, State.admits, State.sourceReady, hl]
    · rw [step_without_word hi (by simp [State.fetch, State.issued, State.delivered, hi, Config.headerLen, hl])]
      simp [runInput, Steps, answerSourceOk_next, State.admits, State.sourceReady, ho, hl]

/-- Settles O46: act by act, the step is a next state under the condition that admits the act. -/
theorem stepsExactlyWhereAdmitted : Obligations.StepsExactlyWhereAdmitted := by
  intro s i rest h hi
  change _ ↔ Steps (step s)
  have hout := out_phase h
  cases i with
  | write n v => exact (step_write_steps hi).symm
  | read n =>
    rw [step_read hi]
    exact (hostRead_steps (s := { s with inputs := rest }) n).symm
  | memRead sp a n =>
    rw [step_memRead hi]
    exact (hostMemRead_steps (Inv.outside h s.stream rest s.obs) sp a n).symm
  | memWrite sp a v =>
    rw [step_memWrite hi]
    exact (hostMemWrite_steps (s := { s with inputs := rest }) sp a v).symm
  | inspectResolve => exact (step_inspectResolve_steps hi).symm
  | reset k =>
    rw [step_without_word hi (by simp [State.fetch, State.issued, State.delivered, hi])]
    exact iff_of_true rfl ⟨_, rfl⟩
  | arrive b =>
    rw [step_without_word hi (by simp [State.fetch, State.issued, State.delivered, hi])]
    exact iff_of_true rfl ⟨_, rfl⟩
  | srcOk => exact (step_srcOk_steps h hi).symm
  | srcFail d k =>
    rw [step_srcFail hi]
    simp only [Steps, answerSourceFail_next, State.admits]
    obtain ⟨-, ho⟩ | ⟨-, ho⟩ | ⟨_, -, ho⟩ | ⟨_, _, _, -, ho, -⟩ | ⟨_, -, ho⟩ := hout <;> simp [ho]
  | ciphAnswer =>
    rw [step_ciphAnswer hi]
    simp only [Steps, answerCipher_next, State.admits]
    obtain ⟨hp, ho⟩ | ⟨hp, ho⟩ | ⟨_, hp, ho⟩ | ⟨_, _, _, hp, ho, -⟩ | ⟨_, hp, ho⟩ := hout <;> simp [hp, ho]
  | dcmpAnswer =>
    rw [step_dcmpAnswer hi]
    simp only [Steps, answerDecompressor_next, State.admits]
    obtain ⟨hp, ho⟩ | ⟨hp, ho⟩ | ⟨_, hp, ho⟩ | ⟨_, _, _, hp, ho, -⟩ | ⟨_, hp, ho⟩ := hout <;> simp [hp, ho]

end Sys2Proof.Machine
end

section
/-! SUPPORT. The payload's arrival (R74, R131), and what a step observes and asks for (R33, R64, R196). -/

open Sys2Proof

namespace Sys2Proof.Machine

variable {s t : State}

/-! ## The wait for the payload (R130 step 4) -/

/-- R130: in PAY_READ the length asked of the source is the declared one. -/
theorem Inv.payRead_length (h : s.Inv) (hp : s.phase = .payRead) {n : Nat} (ho : s.out = some (.src n)) :
    n = (headerFields s.hbuf).plen.toNat := by
  obtain ⟨hout, -⟩ : s.out = some (.src (headerFields s.hbuf).plen.toNat) ∧ _ := by
    simpa only [State.WaitOk, hp] using h.waiting
  simpa [ho] using hout

/-- Settles O18: `commitPacket` writes the packet group alone, the declared length fits its 32-bit register, and the
report is still what acceptance left, by the invariant. -/
theorem payloadCommitsPacket : Obligations.PayloadCommitsPacket := by
  intro s n rest h hi hp ho hl
  obtain rfl := Inv.payRead_length h hp ho
  have a := Inv.accepted h (Inv.busy h (by rw [hp]; decide))
  have hlen : (s.stream.take (headerFields s.hbuf).plen.toNat).length = (headerFields s.hbuf).plen.toNat :=
    List.length_take_of_le hl
  have hplen : BitVec.ofNat 32 (s.stream.take (headerFields s.hbuf).plen.toNat).length = (headerFields s.hbuf).plen := by
    rw [hlen, BitVec.ofNat_toNat, BitVec.setWidth_eq]
  refine ⟨_, step_srcOk_pay hi hp ho hl, ?succeeded, ?packet, hplen, ⟨rfl, rfl, rfl, rfl, rfl⟩, ⟨rfl, rfl⟩, ⟨rfl, rfl, rfl⟩,
    ⟨rfl, rfl, rfl⟩, ⟨rfl, rfl, rfl, rfl⟩⟩
  case succeeded => exact ⟨rfl, rfl, a.err, a.kind, a.reason, a.info, rfl, rfl, rfl⟩
  case packet => exact ⟨rfl, rfl, rfl, rfl, rfl, (congrArg BitVec.toNat hplen).trans hlen.symm, rfl, rfl⟩

/-! ## The outstanding request (R64, R196) -/

/-- R64, R196: under the invariant the outstanding request has the shape the block guarantees. -/
theorem Inv.out_shapeOk (h : s.Inv) {r : Request} (ho : s.out = some r) : r.shapeOk s.par := by
  have hw := h.waiting
  unfold State.WaitOk at hw
  generalize s.phase = p at hw
  cases p with
  | idle =>
    obtain ⟨hout, -⟩ := hw
    rw [ho] at hout
    cases hout
  | hdrRead =>
    obtain ⟨hout, -⟩ := hw
    obtain rfl := Option.some.inj (ho.symm.trans hout)
    exact .inl rfl
  | payRead =>
    obtain ⟨hout, -, -, hpos, hmax, -⟩ := hw
    obtain rfl := Option.some.inj (ho.symm.trans hout)
    exact .inr ⟨hpos, hmax⟩
  | ciphWait =>
    obtain ⟨-, hkey, ⟨-, hout, hblock⟩ | ⟨-, hvalid, -, hout, hblock⟩⟩ := hw
    · obtain rfl := Option.some.inj (ho.symm.trans hout)
      exact ⟨hkey, h.opivLength, hblock⟩
    · obtain ⟨-, -, -, -, hiv⟩ := h.packet hvalid
      obtain rfl := Option.some.inj (ho.symm.trans hout)
      exact ⟨hkey, hiv, hblock⟩
  | dcmpWait =>
    obtain ⟨-, -, -, -, -, -, hout⟩ := hw
    obtain rfl := Option.some.inj (ho.symm.trans hout)
    trivial

/-! ## What a step observes (R199) -/

/-- From `s` to `t` at most one observation is added, and a request among it is the outstanding one of `t`. -/
def ObservesAtMostOne (s t : State) : Prop :=
  t.obs = s.obs ∨ ∃ o, t.obs = o :: s.obs ∧ ∀ r, o = .request r → t.out = some r

namespace ObservesAtMostOne

theorem silent (h : t.obs = s.obs) : ObservesAtMostOne s t := .inl h

theorem raise (e : Err) (s : State) : ObservesAtMostOne s (s.raise e) := silent rfl

theorem finishWork (s : State) : ObservesAtMostOne s s.finishWork := silent rfl

theorem request (s : State) (r : Request) (p : Phase) : ObservesAtMostOne s (s.request r p) :=
  .inr ⟨.request r, rfl, fun _ hr => congrArg some (Obs.request.inj hr)⟩

/-- What is observed other than a request does not concern OUT. -/
theorem observed {o : Obs} (h : t.obs = o :: s.obs) (ho : ∀ r, o ≠ .request r) : ObservesAtMostOne s t :=
  .inr ⟨o, h, fun r hr => absurd hr (ho r)⟩

/-! ### The stages and the bodies: a request is the last thing any of them does -/

theorem startDecrypt (s : State) (key iv : Bytes) : ObservesAtMostOne s (s.startDecrypt key iv) := by
  obtain ⟨-, hs⟩ | ⟨-, -, hs⟩ | ⟨-, -, hs⟩ := startDecrypt_cases s key iv <;> rw [hs]
  · exact raise _ _
  · exact raise _ _
  · exact request _ _ _

theorem snappyStage (s : State) : ObservesAtMostOne s s.snappyStage := by
  obtain ⟨-, hs⟩ | ⟨-, hs⟩ := snappyStage_cases s <;> rw [hs]
  · exact raise _ _
  · exact request _ _ _

theorem afterDecrypt (s : State) : ObservesAtMostOne s s.afterDecrypt := by
  obtain ⟨-, hs⟩ | ⟨-, -, hs⟩ | ⟨-, -, hs⟩ := afterDecrypt_cases s <;> rw [hs]
  · exact raise _ _
  · exact snappyStage s
  · exact finishWork s

theorem parseBody (s : State) : ObservesAtMostOne s s.parseBody := by
  unfold State.parseBody
  split
  · exact silent rfl
  · split <;> exact silent rfl

theorem unpadBody (s : State) : ObservesAtMostOne s s.unpadBody := by
  unfold State.unpadBody
  split <;> exact silent rfl

theorem resolveBody (s : State) : ObservesAtMostOne s s.resolveBody := by
  unfold State.resolveBody
  split
  · split
    · exact startDecrypt s.startResolve _ _
    · exact afterDecrypt s.startResolve
  · exact raise _ _

theorem frameHeader (s : State) (f : Header) : ObservesAtMostOne s (s.frameHeader f) := by
  unfold State.frameHeader
  split
  · exact raise _ _
  · split
    · exact raise _ _
    · exact request _ _ _

/-! ### Instructions and code words -/

theorem command {o : Option Oper} {body : State → State} (hbody : ∀ u, ObservesAtMostOne u (body u))
    (hx : s.command o body = .next t) : ObservesAtMostOne s t := by
  obtain ⟨-, rfl⟩ := command_next.mp hx
  exact hbody (s.accept.setOper o)

theorem secondLevel {k : BitVec 3} {stages : State → State} (hstages : ∀ u, ObservesAtMostOne u (stages u))
    (hx : s.secondLevel k stages = .next t) : ObservesAtMostOne s t := by
  obtain ⟨-, ⟨-, -, rfl⟩ | ⟨-, rfl⟩⟩ := secondLevel_next.mp hx
  · exact hstages (s.accept.setOper (some .resolve)).startResolve
  · exact raise _ (s.accept.setOper (some .resolve))

theorem exec {i : Instr} (hx : exec i s = .next t) : ObservesAtMostOne s t := by
  cases i
  case parse => exact command parseBody hx
  case decode => exact command (fun u => request u.clearPacket _ _) hx
  case decrypt => exact command (fun u => startDecrypt (u.clearResult.setWork u.ibuf) _ _) hx
  case unpad => exact command unpadBody hx
  case resolve => exact command resolveBody hx
  case illegalOp0 | illegalOp6 | illegalOp7 => exact command (raise _) hx
  case resolveF0 => exact secondLevel finishWork hx
  case resolveF2 | resolveF6 => exact secondLevel (raise _) hx
  case resolveF4 => exact secondLevel snappyStage hx
  case resolveF1 | resolveF3 | resolveF5 | resolveF7 => exact secondLevel (fun u => startDecrypt u _ _) hx
  case informHeader f =>
    obtain ⟨-, rfl⟩ := execInformHeader_next.mp hx
    exact frameHeader (s.setHeaderBuffer _) f

theorem reject {w : CodeWord} (hx : reject w s = .next t) : ObservesAtMostOne s t := by
  cases w with
  | cmd c => exact command (raise _) hx
  | flags f => exact command (raise _) hx
  | header b =>
    obtain ⟨-, rfl⟩ := rejectHeader_next.mp hx
    exact silent rfl

theorem runWord {w : CodeWord} (hx : runWord w s = .next t) : ObservesAtMostOne s t := by
  cases hd : decode w with
  | ok i => exact exec (runWord_of_ok hd ▸ hx)
  | error e => exact reject (runWord_of_error hd ▸ hx)

/-! ### Acts without a code word -/

theorem cipherAnswered (s : State) (d : Bytes) : ObservesAtMostOne s (cipherAnswered d s) := by
  unfold Machine.cipherAnswered
  split
  · exact silent rfl
  · split
    · exact afterDecrypt ((s.setWork d).setWork _)
    · exact silent rfl

theorem decompressorAnswered (s : State) (a : DcmpAnswer) : ObservesAtMostOne s (decompressorAnswered a s) := by
  unfold Machine.decompressorAnswered
  split
  · exact raise _ _
  · split
    · exact raise _ _
    · exact finishWork (s.setWork _)

theorem sourceFailed (s : State) (d : Nat) : ObservesAtMostOne s (sourceFailed d s) := by
  unfold Machine.sourceFailed
  split <;> exact raise _ _

theorem runInput {i : Input} (hx : runInput i s = .next t) : ObservesAtMostOne s t := by
  cases i with
  | write reg v => obtain ⟨-, ⟨-, -, rfl⟩ | ⟨-, -, rfl⟩ | ⟨-, -, rfl⟩⟩ := hostWrite_next.mp hx <;> exact silent rfl
  | read reg =>
    obtain ⟨r, v, -, -, rfl⟩ := hostRead_next.mp hx
    exact observed rfl nofun
  | memRead sp a n =>
    obtain ⟨-, b, -, -, rfl⟩ := hostMemRead_next.mp hx
    exact observed rfl nofun
  | memWrite sp a v =>
    obtain ⟨-, -, -, rfl⟩ := hostMemWrite_next.mp hx
    exact silent rfl
  | inspectResolve =>
    obtain ⟨-, rfl⟩ := inspectIdle_next.mp hx
    exact silent rfl
  | reset k | arrive b =>
    cases hx
    exact silent rfl
  | srcOk =>
    obtain ⟨n, -, -, -, rfl⟩ := answerSourceOk_next.mp hx
    exact silent rfl
  | srcFail d k =>
    obtain ⟨n, -, rfl⟩ := answerSourceFail_next.mp hx
    exact sourceFailed { s with stream := s.stream.drop k } d
  | ciphAnswer =>
    obtain ⟨key, iv, ct, -, rfl⟩ := answerCipher_next.mp hx
    exact cipherAnswered s _
  | dcmpAnswer =>
    obtain ⟨data, -, rfl⟩ := answerDecompressor_next.mp hx
    exact decompressorAnswered s _

theorem pastWord_obs (s : State) : s.pastWord.obs = s.obs := by
  unfold State.pastWord
  split <;> rfl

theorem step (hx : step s = .next t) : ObservesAtMostOne s t := by
  obtain ⟨-, rfl⟩ | ⟨w, -, hw⟩ | ⟨i, rest, -, -, hi⟩ := step_cases hx
  · exact silent rfl
  · have hrun := runWord hw
    rwa [ObservesAtMostOne, pastWord_obs] at hrun
  · exact runInput (s := { s with inputs := rest }) hi

end ObservesAtMostOne

/-- Settles O42: a request a step observes is the outstanding one of the next state, whose invariant gives its shape. -/
theorem requestsMeetTheirContracts : Obligations.RequestsMeetTheirContracts := by
  intro s t h hx
  obtain hsame | ⟨o, hobs, hout⟩ := ObservesAtMostOne.step hx
  · exact .inl hsame
  · refine .inr ⟨o, hobs, fun r hr => ⟨?_, hout r hr⟩⟩
    rw [← parametersNeverChange s t hx]
    exact Inv.out_shapeOk (stepKeepsInvariant s t h hx) (hout r hr)

end Sys2Proof.Machine
end

section
/-! SUPPORT. Decoder and encoder agree, and the header function reads each field at its offset (R90, R92, R97 to R101). -/

namespace Sys2Proof

/-! ## Command words (R97 to R99) -/

/-- R97: a command word whose reserved bits are 0 is one of the eight operation codes. -/
theorem mem_operationCodes {c : BitVec 8} (h : c.extractLsb' 3 5 = 0#5) :
    c ∈ [0#8, 1#8, 2#8, 3#8, 4#8, 5#8, 6#8, 7#8] := by
  revert c
  decide

theorem decodeCommand_of_reserved {c : BitVec 8} (h : c.extractLsb' 3 5 ≠ 0#5) :
    decodeCommand c = .error (.reservedBits c) := if_pos h

theorem encode_of_decodeCommand {c : BitVec 8} {i : Instr} (h : decodeCommand c = .ok i) :
    encode i = .cmd c ∧ i.wf = true := by
  by_cases hr : c.extractLsb' 3 5 = 0#5
  · have hc := mem_operationCodes hr
    simp only [List.mem_cons, List.not_mem_nil, or_false] at hc
    obtain rfl | rfl | rfl | rfl | rfl | rfl | rfl | rfl := hc <;> cases h <;> exact ⟨rfl, rfl⟩
  · rw [decodeCommand_of_reserved hr] at h
    cases h

/-! ## Flags words (R93, R94, R101) -/

theorem encode_decodeFlags (f : BitVec 16) : encode (decodeFlags f) = .flags f := by
  have columns : encode (decodeFlags f) =
      .flags (encodeFlags (flagsRest f) (isEncrypted f) (isCompressed f) (isSnappy f)) := by
    unfold decodeFlags
    cases isEncrypted f <;> cases isCompressed f <;> cases isSnappy f <;> rfl
  rw [columns, encodeFlags_join]

theorem decodeFlags_wf (f : BitVec 16) : (decodeFlags f).wf = true := by
  have operand : (decodeFlags f).wf = flagsRestWf (flagsRest f) := by
    unfold decodeFlags
    cases isEncrypted f <;> cases isCompressed f <;> cases isSnappy f <;> rfl
  rw [operand, flagsRest_wf]

/-! ## Header words (R90, R92, R105) -/

theorem parseHeader_eq_some {b : Bytes} {f : Header} :
    parseHeader b = some f ↔ magicMatches b = true ∧ headerFields b = f := by
  unfold parseHeader
  cases magicMatches b <;> simp

theorem parseHeader_isSome (b : Bytes) : (parseHeader b).isSome = magicMatches b := by
  unfold parseHeader
  cases magicMatches b <;> rfl

theorem parseHeader_eq_none {b : Bytes} : parseHeader b = none ↔ magicMatches b = false := by
  rw [← Option.isSome_eq_false_iff.trans Option.isNone_iff_eq_none, parseHeader_isSome]

theorem decodeHeader_of_length {b : Bytes} (hl : b.length ≠ 40) : decodeHeader b = .error (.headerLength b.length) :=
  if_pos hl

theorem decodeHeader_of_some {b : Bytes} {f : Header} (hl : b.length = 40) (h : parseHeader b = some f) :
    decodeHeader b = .ok (.informHeader f) := by
  simp [decodeHeader, Config.headerLen, hl, h]

theorem decodeHeader_of_none {b : Bytes} (hl : b.length = 40) (h : parseHeader b = none) :
    decodeHeader b = .error (.badMagic (slice b 0 4)) := by
  simp [decodeHeader, Config.headerLen, hl, h, Config.pverAt, Config.magicLen]

theorem decodeHeader_eq_ok {b : Bytes} {i : Instr} :
    decodeHeader b = .ok i ↔ b.length = 40 ∧ ∃ f, parseHeader b = some f ∧ i = .informHeader f := by
  constructor
  case mpr =>
    rintro ⟨hl, f, hf, rfl⟩
    exact decodeHeader_of_some hl hf
  case mp =>
    intro h
    have hl : b.length = 40 := by
      by_contra hl
      rw [decodeHeader_of_length hl] at h
      cases h
    cases hf : parseHeader b with
    | none =>
      rw [decodeHeader_of_none hl hf] at h
      cases h
    | some f =>
      rw [decodeHeader_of_some hl hf] at h
      cases h
      exact ⟨hl, f, rfl, rfl⟩

theorem slice_self (b : Bytes) (i : Nat) : slice b i i = [] := by
  simp [slice]

theorem slice_eq_cons {b : Bytes} {i j : Nat} (hi : i < b.length) (hij : i < j) :
    slice b i j = b.getD i 0 :: slice b (i + 1) j := by
  have hlen : j - i = j - (i + 1) + 1 := by omega
  rw [slice, slice, List.drop_eq_getElem_cons hi, hlen, List.take_succ_cons, List.getD_eq_getElem _ _ hi]

theorem be16_slice_toNat {b : Bytes} {i : Nat} (h : i + 2 ≤ b.length) :
    (be16 (slice b i (i + 2))).toNat = (b.getD i 0).toNat * 2 ^ 8 + (b.getD (i + 1) 0).toNat := by
  rw [slice_eq_cons (by omega) (by omega), slice_eq_cons (by omega) (by omega), slice_self, be16_toNat]

theorem be32_slice_toNat {b : Bytes} {i : Nat} (h : i + 4 ≤ b.length) :
    (be32 (slice b i (i + 4))).toNat =
      (b.getD i 0).toNat * 2 ^ 24 + (b.getD (i + 1) 0).toNat * 2 ^ 16 + (b.getD (i + 2) 0).toNat * 2 ^ 8 +
        (b.getD (i + 3) 0).toNat := by
  rw [slice_eq_cons (by omega) (by omega), slice_eq_cons (by omega) (by omega), slice_eq_cons (by omega) (by omega),
    slice_eq_cons (by omega) (by omega), slice_self, be32_toNat]

/-! ## The statements -/

/-- Settles O4: the decoder evaluated on each word. -/
theorem sampleWordsDecode : Obligations.SampleWordsDecode :=
  ⟨rfl, rfl, rfl, rfl, rfl, rfl, rfl, rfl, rfl, rfl⟩

/-- Settles O5, format by format: a command word is a constant, a flags word gives back its three flags and the rest,
and a header gives back its magic and its fields. -/
theorem decodeOfEncodeIsIdentity : Obligations.DecodeOfEncodeIsIdentity := by
  intro i hw
  cases i with
  | parse | decode | decrypt | unpad | resolve | illegalOp0 | illegalOp6 | illegalOp7 => rfl
  | resolveF0 rest => exact congrArg _ (decodeFlags_encodeFlags0 hw)
  | resolveF1 rest => exact congrArg _ (decodeFlags_encodeFlags1 hw)
  | resolveF2 rest => exact congrArg _ (decodeFlags_encodeFlags2 hw)
  | resolveF3 rest => exact congrArg _ (decodeFlags_encodeFlags3 hw)
  | resolveF4 rest => exact congrArg _ (decodeFlags_encodeFlags4 hw)
  | resolveF5 rest => exact congrArg _ (decodeFlags_encodeFlags5 hw)
  | resolveF6 rest => exact congrArg _ (decodeFlags_encodeFlags6 hw)
  | resolveF7 rest => exact congrArg _ (decodeFlags_encodeFlags7 hw)
  | informHeader f => exact decodeHeader_of_some (encodeHeader_length f hw) (parseHeader_encodeHeader f hw)

/-- Settles O6, format by format. -/
theorem encodeOfDecodeIsIdentity : Obligations.EncodeOfDecodeIsIdentity := by
  intro w i h
  cases w with
  | cmd c => exact encode_of_decodeCommand h
  | flags f =>
    cases h
    exact ⟨encode_decodeFlags f, decodeFlags_wf f⟩
  | header b =>
    obtain ⟨hl, f, hf, rfl⟩ := decodeHeader_eq_ok.mp h
    obtain ⟨hm, rfl⟩ := parseHeader_eq_some.mp hf
    exact ⟨congrArg _ (encodeHeader_headerFields b hl hm), headerFields_wf b hl⟩

/-- Settles O7: the fields are the slices at the offsets of R92, and a slice is its bytes. -/
theorem headerFieldsByOffset : Obligations.HeaderFieldsByOffset := by
  intro b hl
  refine ⟨by rw [parseHeader_isSome, magicMatches_take], fun f hf => ?_⟩
  obtain ⟨-, rfl⟩ := parseHeader_eq_some.mp hf
  rw [headerFields_at]
  exact ⟨be32_slice_toNat (i := 4) (by omega), rfl, be16_slice_toNat (i := 14) (by omega), rfl,
    be32_slice_toNat (i := 32) (by omega), be32_slice_toNat (i := 36) (by omega)⟩

end Sys2Proof
end

section
/-! SUPPORT. What becomes of a fetched code word: illegal commands, wrong magics and second-level opcodes (R99, R101,
R103, R105). -/

open Sys2Proof

namespace Sys2Proof.Machine

variable {s : State} {rest : List Input}

/-! ## Fetching -/

theorem step_of_fetch {w : CodeWord} (h : s.fetch = some w) : step s = runWord w s.pastWord := by
  simp [step, stepInput, h]

theorem commandWord_of_ne {c : BitVec 8} (h : c ≠ 5#8) : s.commandWord c = .cmd c := by
  simp [State.commandWord, h]

theorem decodeTableWord_eq_some {nbits w : Nat} {i : Instr} :
    decodeTableWord nbits w = some i ↔ ∃ cw, codeWordOf nbits w = some cw ∧ decode cw = .ok i := by
  unfold decodeTableWord
  cases codeWordOf nbits w with
  | none => simp
  | some cw => cases hd : decode cw <;> simp [hd]

/-- A placed word is what the next step fetches: a command where no Packet turns it into a flags word, and a header that
is 40 bytes long. -/
theorem fetch_placeWord {w : CodeWord} {i : Instr} (hp : s.status.pktValid = false) (h : decode w = .ok i) :
    (s.placeWord w).fetch = some w := by
  cases w with
  | cmd c => simp [State.placeWord, State.fetch, State.issued, State.commandWord, State.withoutOperation, hp]
  | flags f =>
    simp [State.placeWord, State.fetch, State.issued, State.commandWord, State.withoutOperation, State.withPacket, hp]
  | header b =>
    obtain ⟨hl, -⟩ := decodeHeader_eq_ok.mp h
    simp [State.placeWord, State.fetch, State.issued, State.delivered, State.awaitsHeader, Config.headerLen, hl]

/-- Settles O9: the placed word is fetched, and it decodes to the instruction. -/
theorem placedTableWordRuns : Obligations.PlacedTableWordRuns := by
  intro nbits w i h
  obtain ⟨cw, hcw, hi⟩ := decodeTableWord_eq_some.mp h
  have hplaced : State.reset.withFetchWord nbits w = State.reset.placeWord cw := by simp [State.withFetchWord, hcw]
  rw [hplaced, step_of_fetch (fetch_placeWord rfl hi), runWord_of_ok hi]

/-! ## Illegal commands (R99) -/

/-- R99, R194 reason 1: an illegal command completes at once, whatever is queued, and changes nothing else. -/
theorem illegalCommand_completes (hb : s.status.busy = false) (acts : List Input) :
    ∃ t, illegalCommand { s with inputs := acts } = .next t ∧ t.Failed .illegalCommand ∧ SameOperands s t ∧ SameHidden s t ∧
      SameHeader s t ∧ SamePacket s t ∧ SameResult s t ∧ SameOutside { s with inputs := acts } t :=
  ⟨_, command_of_idle _ _ _ hb, ⟨rfl, rfl, rfl, rfl, rfl, rfl, rfl, rfl, rfl⟩, ⟨rfl, rfl, rfl, rfl, rfl⟩, ⟨rfl, rfl⟩,
    ⟨rfl, rfl, rfl⟩, ⟨rfl, rfl, rfl⟩, ⟨rfl, rfl, rfl⟩, ⟨rfl, rfl, rfl, rfl⟩⟩

/-- R99: with no reserved bit set, the operation codes 0, 6 and 7 are the whole words 0, 6 and 7. -/
theorem illegal_words {c : BitVec 8}
    (h : c.extractLsb' 0 3 = 0#3 ∨ c.extractLsb' 0 3 = 6#3 ∨ c.extractLsb' 0 3 = 7#3 ∨ c.extractLsb' 3 5 ≠ 0#5) :
    c = 0#8 ∨ c = 6#8 ∨ c = 7#8 ∨ c.extractLsb' 3 5 ≠ 0#5 := by
  revert c
  decide

theorem runWord_of_illegal {c : BitVec 8} (h : c = 0#8 ∨ c = 6#8 ∨ c = 7#8 ∨ c.extractLsb' 3 5 ≠ 0#5) (s : State) :
    runWord (.cmd c) s = illegalCommand s := by
  obtain rfl | rfl | rfl | hr := h
  · rfl
  · rfl
  · rfl
  · exact runWord_of_error (decodeCommand_of_reserved hr)

/-- Settles O10: the word is not RESOLVE's, so it is the code word itself, and its effect is that of every illegal
command. -/
theorem illegalCommandWordsRefused : Obligations.IllegalCommandWordsRefused := by
  intro s c rest hi hb hc
  have hwords := illegal_words hc
  have hne : c ≠ 5#8 := by
    rintro rfl
    revert hwords
    decide
  rw [step_command hi, commandWord_of_ne hne, runWord_of_illegal hwords]
  exact illegalCommand_completes hb rest

/-- Settles O11: the three rows have one effect. -/
theorem illegalOperationsComplete : Obligations.IllegalOperationsComplete := by
  intro s i hb hi
  have hrow : exec i s = illegalCommand s := by
    simp only [List.mem_cons, List.not_mem_nil, or_false] at hi
    obtain rfl | rfl | rfl := hi <;> rfl
  rw [hrow]
  exact illegalCommand_completes hb s.inputs

/-! ## A header without the magic (R105, R210) -/

theorem runWord_of_wrong_magic {b : Bytes} (hl : b.length = 40) (hm : magicMatches b = false) (hw : s.awaitsHeader = true) :
    runWord (.header b) s = .next ((s.setHeaderBuffer b).raise .invalidMagic) := by
  have hdecode : decode (.header b) = .error _ := decodeHeader_of_none hl (parseHeader_eq_none.mpr hm)
  rw [runWord_of_error hdecode]
  exact rejectHeader_next.mpr ⟨hw, rfl⟩

/-- Settles O16: the 40 bytes are the fetched word, their first four are not the magic, and the word is rejected. -/
theorem wrongMagicEndsDecode : Obligations.WrongMagicEndsDecode := by
  intro s rest hi hp ho hl hm
  have hmagic : magicMatches (s.stream.take 40) = false := by
    rw [magicMatches_take, List.take_take, beq_eq_false_iff_ne]
    exact hm
  have hrun := runWord_of_wrong_magic (s := { s with inputs := rest, stream := s.stream.drop 40 })
    (List.length_take_of_le hl) hmagic (awaitsHeader_iff.mpr ⟨hp, ho⟩)
  exact ⟨_, (step_srcOk_hdr hi hp ho hl).trans hrun, ⟨rfl, rfl, rfl, rfl, rfl, rfl, rfl, rfl, rfl⟩,
    ⟨rfl, rfl, rfl, rfl, rfl⟩, rfl, rfl, ⟨rfl, rfl, rfl⟩, ⟨rfl, rfl, rfl⟩, ⟨rfl, rfl, rfl⟩, ⟨rfl, rfl, rfl, rfl⟩⟩

/-! ## Second-level opcodes (R101, R103) -/

/-- R101, the table: the stages of the class, by the columns Encrypted, Compressed, Snappy. -/
def stagesOf (f : BitVec 16) (u : State) : State :=
  if isEncrypted f then u.decryptStage
  else if isCompressed f then u.legacyStage
  else if isSnappy f then u.snappyStage
  else u.finishWork

theorem exec_decodeFlags (f : BitVec 16) (s : State) : exec (decodeFlags f) s = s.secondLevel (flagsClass f) (stagesOf f) := by
  unfold decodeFlags flagsClass stagesOf
  cases isEncrypted f <;> cases isCompressed f <;> cases isSnappy f <;> rfl

/-- R170: RESOLVE's own tests of the stored flags select the stages of their class. -/
theorem execResolve_eq_stagesOf (hb : s.status.busy = false) (hp : s.status.pktValid = true) :
    execResolve s = .next (stagesOf s.pkt.flags (s.accept.setOper (some .resolve)).startResolve) :=
  resolve_of_packet s hb hp

/-- Settles O26: both run the stages of the class of the stored flags. -/
theorem resolveIsItsSecondLevelOpcode : Obligations.ResolveIsItsSecondLevelOpcode := by
  intro s i hb hp hi
  obtain rfl : decodeFlags s.pkt.flags = i := Except.ok.inj hi
  calc exec .resolve s
      = .next (stagesOf s.pkt.flags (s.accept.setOper (some .resolve)).startResolve) := execResolve_eq_stagesOf hb hp
    _ = s.secondLevel (flagsClass s.pkt.flags) (stagesOf s.pkt.flags) := (secondLevel_of_held s _ _ hb hp rfl).symm
    _ = exec (decodeFlags s.pkt.flags) s := (exec_decodeFlags _ s).symm

/-- R171, R101: with or without a Packet, the command word of RESOLVE runs RESOLVE. -/
theorem runWord_resolve (hb : s.status.busy = false) : runWord (s.commandWord 5#8) s = exec .resolve s := by
  cases hp : s.status.pktValid with
  | false =>
    have hword : s.commandWord 5#8 = .cmd 5#8 := by simp [State.commandWord, hp]
    rw [hword]
    rfl
  | true =>
    have hword : s.commandWord 5#8 = .flags s.pkt.flags := by simp [State.commandWord, hp]
    rw [hword, runWord_of_ok rfl]
    exact (resolveIsItsSecondLevelOpcode s _ hb hp rfl).symm

/-- Settles O57: a failed DECODE leaves the act without a code word, a successful one makes it a command of RESOLVE. -/
theorem inspectResolvesOnlyAfterSuccess : Obligations.InspectResolvesOnlyAfterSuccess := by
  intro s rest hi hb hd
  refine ⟨fun he => ?failed, fun he => ?succeeded⟩
  case failed =>
    have hnone : s.fetch = none := by simp [State.fetch, State.issued, State.delivered, hi, he]
    rw [step_without_word hi hnone]
    exact inspectIdle_next.mpr ⟨hb, rfl⟩
  case succeeded =>
    have hissued : s.issued = some 5#8 := by simp [State.issued, hi, hd, he]
    have hpast : s.pastWord = { s with inputs := rest } := by simp [State.pastWord, hissued, hi]
    have hfetch : s.fetch = some (s.commandWord 5#8) := by simp [State.fetch, hissued]
    rw [step_of_fetch hfetch, hpast]
    exact runWord_resolve (s := { s with inputs := rest }) hb

end Sys2Proof.Machine
end

section
/-! SUPPORT. What the padding remover accepts (R95, R160). -/

open Sys2Proof

namespace Sys2Proof.Machine

/-- R160: the remover succeeds on a buffer that ends in `n` copies of its last byte `n`. -/
theorem unpad_eq_ok {b u : Bytes} :
    unpad b = .ok u ↔
      ∃ x, b.getLast? = some x ∧ 1 ≤ x.toNat ∧ x.toNat ≤ b.length ∧
        b.drop (b.length - x.toNat) = List.replicate x.toNat x ∧ b.take (b.length - x.toNat) = u := by
  unfold unpad
  cases b.getLast? with
  | none => simp
  | some x =>
    by_cases hn : x.toNat = 0 ∨ b.length < x.toNat
    · simp only [hn, if_true, reduceCtorEq, false_iff]
      rintro ⟨y, hy, h1, h2, -⟩
      cases hy
      omega
    · have hlen : b.length - (b.length - x.toNat) = x.toNat := by omega
      have hall : (b.drop (b.length - x.toNat)).all (fun y => y == x) = true ↔
          b.drop (b.length - x.toNat) = List.replicate x.toNat x := by
        simp [List.eq_replicate_iff, hlen]
      have hpos : 1 ≤ x.toNat := by omega
      have hle : x.toNat ≤ b.length := by omega
      simp only [hn, if_false, hall]
      by_cases hd : b.drop (b.length - x.toNat) = List.replicate x.toNat x <;> simp [hd, hpos, hle]

/-- Settles O21: the last byte of a padded buffer is the number of its copies. -/
theorem unpadAcceptsExactlyPadded : Obligations.UnpadAcceptsExactlyPadded := by
  intro b u
  rw [unpad_eq_ok]
  constructor
  case mp =>
    rintro ⟨x, -, hpos, -, hdrop, rfl⟩
    refine ⟨x.toNat, hpos, by omega, ?_⟩
    rw [BitVec.ofNat_toNat, BitVec.setWidth_eq, ← hdrop, List.take_append_drop]
  case mpr =>
    rintro ⟨n, hpos, hmax, rfl⟩
    have hn : (BitVec.ofNat 8 n).toNat = n := by
      rw [BitVec.toNat_ofNat]
      omega
    have hlast : (u ++ List.replicate n (BitVec.ofNat 8 n)).getLast? = some (BitVec.ofNat 8 n) := by
      simp [List.getLast?_append, List.getLast?_replicate, Nat.one_le_iff_ne_zero.mp hpos]
    have hlen : (u ++ List.replicate n (BitVec.ofNat 8 n)).length - n = u.length := by simp
    exact ⟨_, hlast, by omega, by simp [hn], by simp [hn], by simp [hn]⟩

end Sys2Proof.Machine
end

section
/-! SUPPORT. PARSE: what it does on each operand, and what it leaves unchanged (R120, R121). -/

open Sys2Proof

namespace Sys2Proof.Machine

variable {s t : State}

/-! ## How a command ends (R193, R217) -/

theorem State.raise_failed (e : Err) (s : State) : (s.raise e).Failed e :=
  ⟨rfl, rfl, rfl, rfl, rfl, rfl, rfl, rfl, rfl⟩

/-- R193: completion leaves ERR and the error registers as acceptance left them, which is 0. -/
theorem State.Accepted.complete_succeeded (a : s.Accepted) : s.complete.Succeeded :=
  ⟨rfl, rfl, a.err, a.kind, a.reason, a.info, rfl, rfl, rfl⟩

/-! ## PARSE's pseudocode, an equation per outcome (R121) -/

theorem parseBody_of_length (hl : s.ilen ≠ 40#32) : s.parseBody = s.raise .parseLength :=
  if_pos hl

theorem parseBody_of_magic (hl : s.ilen = 40#32) (hm : s.ibuf.take 4 = [0x55#8, 0x42#8, 0x4E#8, 0x54#8]) :
    s.parseBody = (s.clearHeader.commitHeader (headerFields s.ibuf)).complete := by
  have hmagic : magicMatches s.ibuf = true := by rw [magicMatches_take, hm, beq_self_eq_true]
  have hparse : parseHeader s.ibuf = some (headerFields s.ibuf) := parseHeader_eq_some.mpr ⟨hmagic, rfl⟩
  simp [State.parseBody, Config.headerLen, hl, hparse]

theorem parseBody_of_wrong_magic (hl : s.ilen = 40#32) (hm : s.ibuf.take 4 ≠ [0x55#8, 0x42#8, 0x4E#8, 0x54#8]) :
    s.parseBody = s.clearHeader.raise .invalidMagic := by
  have hmagic : magicMatches s.ibuf = false := by rwa [magicMatches_take, beq_eq_false_iff_ne]
  have hparse : parseHeader s.ibuf = none := parseHeader_eq_none.mpr hmagic
  simp [State.parseBody, Config.headerLen, hl, hparse]

/-! ## The instruction -/

theorem exec_parse_of_idle (hb : s.status.busy = false) (ht : (s.accept.setOper (some .parse)).parseBody = t) :
    exec .parse s = .next t :=
  command_next.mpr ⟨hb, ht.symm⟩

/-- R121: PARSE owns the header-field group and the report; every outcome leaves the rest. -/
theorem exec_parse_frame (hx : exec .parse s = .next t) :
    SameOperands s t ∧ SameHidden s t ∧ SamePacket s t ∧ SameResult s t ∧ SameOutside s t := by
  obtain ⟨-, rfl⟩ := command_next.mp hx
  unfold State.parseBody
  repeat' split
  all_goals exact ⟨⟨rfl, rfl, rfl, rfl, rfl⟩, ⟨rfl, rfl⟩, ⟨rfl, rfl, rfl⟩, ⟨rfl, rfl, rfl⟩, ⟨rfl, rfl, rfl, rfl⟩⟩

/-- Settles O12: the operand's length and first four bytes choose the outcome; the frame is that of every outcome. -/
theorem parseDecodesOrFails : Obligations.ParseDecodesOrFails := by
  intro s hb
  refine ⟨fun hl hm => ?decoded, fun hl hm => ?wrongMagic, fun hl => ?wrongLength⟩
  case decoded =>
    have hx := exec_parse_of_idle hb (parseBody_of_magic hl hm)
    have haccepted : ((s.accept.setOper (some .parse)).clearHeader.commitHeader (headerFields s.ibuf)).Accepted :=
      ⟨rfl, rfl, rfl, rfl, rfl, rfl⟩
    exact ⟨_, hx, haccepted.complete_succeeded, rfl, rfl, rfl, exec_parse_frame hx⟩
  case wrongMagic =>
    have hx := exec_parse_of_idle hb (parseBody_of_wrong_magic hl hm)
    exact ⟨_, hx, State.raise_failed _ _, rfl, exec_parse_frame hx⟩
  case wrongLength =>
    have hx := exec_parse_of_idle hb (parseBody_of_length hl)
    exact ⟨_, hx, State.raise_failed _ _, ⟨rfl, rfl, rfl⟩, exec_parse_frame hx⟩

end Sys2Proof.Machine
end

section
/-! SUPPORT. DECODE: its acceptance, the header word, a failing source (R130 to R136), and the whole operation against
the stub source of R102. -/

open Sys2Proof

namespace Sys2Proof.Machine

variable {s : State} {rest : List Input}

/-! ## Acceptance (R131) -/

theorem exec_decode_of_idle (hb : s.status.busy = false) :
    exec .decode s = .next (s.accept.setOper (some .decode)).decodeBody :=
  command_of_idle s _ _ hb

/-- Settles O13: acceptance clears the report, and DECODE's pseudocode discards the Packet and makes one request. -/
theorem decodeRequestsHeader : Obligations.DecodeRequestsHeader := by
  intro s hb
  exact ⟨_, exec_decode_of_idle hb, ⟨rfl, rfl, rfl, rfl, rfl, rfl, rfl, rfl, rfl⟩, rfl, rfl, rfl, ⟨rfl, rfl, rfl, rfl, rfl⟩,
    ⟨rfl, rfl⟩, ⟨rfl, rfl, rfl⟩, ⟨rfl, rfl, rfl⟩, ⟨rfl, rfl, rfl, rfl⟩⟩

/-! ## The declared length (R132, R136) -/

theorem frameHeader_of_zero {f : Header} (hz : f.plen.toNat = 0) : s.frameHeader f = s.raise .noPayloadLength :=
  if_pos (BitVec.eq_of_toNat_eq hz)

theorem plen_ne_zero {f : Header} (hpos : 0 < f.plen.toNat) : f.plen ≠ 0#32 :=
  fun h0 => hpos.ne' (congrArg BitVec.toNat h0)

theorem frameHeader_of_excess {f : Header} (hmax : s.par.maxPayload < f.plen.toNat) :
    s.frameHeader f = s.raise .capacity := by
  simp [State.frameHeader, plen_ne_zero (Nat.zero_lt_of_lt hmax), hmax]

theorem frameHeader_of_legal {f : Header} (hpos : 1 ≤ f.plen.toNat) (hmax : f.plen.toNat ≤ s.par.maxPayload) :
    s.frameHeader f = s.request (.src f.plen.toNat) .payRead := by
  simp [State.frameHeader, plen_ne_zero hpos, Nat.not_lt.mpr hmax]

/-! ## The header word (R130 steps 2 to 4) -/

/-- Settles O56: outside HDR_READ no header is awaited. -/
theorem headerWordOnlyWhenAwaited : Obligations.HeaderWordOnlyWhenAwaited := by
  intro s f hp
  have hw : ¬s.awaitsHeader = true := fun hw => hp (awaitsHeader_iff.mp hw).1
  exact if_neg hw

theorem exec_informHeader_of_awaited (hp : s.phase = .hdrRead) (ho : s.out = some (.src 40)) (f : Header) :
    exec (.informHeader f) s = .next ((s.setHeaderBuffer (encodeHeader f)).frameHeader f) :=
  execInformHeader_next.mpr ⟨awaitsHeader_iff.mpr ⟨hp, ho⟩, rfl⟩

/-- Settles O14: a legal length makes the header word a request and a write of HBUF, and nothing else. -/
theorem headerWordRequestsPayload : Obligations.HeaderWordRequestsPayload := by
  intro s f hp ho _ hoper hpos hmax
  have hframe : (s.setHeaderBuffer (encodeHeader f)).frameHeader f =
      (s.setHeaderBuffer (encodeHeader f)).request (.src f.plen.toNat) .payRead := frameHeader_of_legal hpos hmax
  refine ⟨_, exec_informHeader_of_awaited hp ho f, ?_⟩
  rw [hframe]
  exact ⟨rfl, rfl, hoper, rfl, rfl, rfl, rfl, rfl, rfl, ⟨rfl, rfl, rfl, rfl, rfl⟩, ⟨rfl, rfl, rfl⟩, ⟨rfl, rfl, rfl⟩,
    ⟨rfl, rfl, rfl⟩, ⟨rfl, rfl, rfl, rfl⟩⟩

/-! ## The source's answers to `SrcRead(40)` (R63) -/

/-- The source has answered: its act is taken, and `k` bytes of the stream are consumed. -/
def State.pastAnswer (rest : List Input) (k : Nat) (s : State) : State :=
  { s with inputs := rest, stream := s.stream.drop k }

/-- The source has answered with the 40 header bytes, and they stand in HBUF. -/
def State.pastHeader (rest : List Input) (s : State) : State :=
  (s.pastAnswer rest 40).setHeaderBuffer (s.stream.take 40)

/-- R90, R120: 40 bytes with the magic are the header word of their fields, which stands in HBUF as it came. -/
theorem step_header_word {f : Header} (hi : s.inputs = .srcOk :: rest) (hp : s.phase = .hdrRead)
    (ho : s.out = some (.src 40)) (hl : 40 ≤ s.stream.length) (hf : parseHeader (s.stream.take 40) = some f) :
    step s = .next ((s.pastHeader rest).frameHeader f) := by
  have hlen : (s.stream.take 40).length = 40 := List.length_take_of_le hl
  have hdecode : decode (.header (s.stream.take 40)) = .ok (.informHeader f) := decodeHeader_of_some hlen hf
  have hbytes : encodeHeader f = s.stream.take 40 := by
    obtain ⟨hm, rfl⟩ := parseHeader_eq_some.mp hf
    exact encodeHeader_headerFields _ hlen hm
  rw [step_srcOk_hdr hi hp ho hl, runWord_of_ok hdecode]
  exact (exec_informHeader_of_awaited (s := s.pastAnswer rest 40) hp ho f).trans (by rw [hbytes]; rfl)

/-- R132, R136: an error raised on a header leaves what the header read has left, and the report beside it. -/
theorem raise_pastHeader_frame (s : State) (rest : List Input) (e : Err) :
    SameOperands s ((s.pastHeader rest).raise e) ∧ ((s.pastHeader rest).raise e).wbuf = s.wbuf ∧
      ((s.pastHeader rest).raise e).hbuf = s.stream.take 40 ∧ SameHeader s ((s.pastHeader rest).raise e) ∧
      SamePacket s ((s.pastHeader rest).raise e) ∧ SameResult s ((s.pastHeader rest).raise e) ∧
      SameOutside { s with inputs := rest, stream := s.stream.drop 40 } ((s.pastHeader rest).raise e) :=
  ⟨⟨rfl, rfl, rfl, rfl, rfl⟩, rfl, rfl, ⟨rfl, rfl, rfl⟩, ⟨rfl, rfl, rfl⟩, ⟨rfl, rfl, rfl⟩, ⟨rfl, rfl, rfl, rfl⟩⟩

/-- Settles O15: the header word is framed by its declared length, which is tested before any request. -/
theorem declaredLengthChecked : Obligations.DeclaredLengthChecked := by
  intro s rest f hi hp ho hl hf
  have hstep := step_header_word hi hp ho hl hf
  refine ⟨fun hz => ?zero, fun hmax => ?excess⟩
  case zero =>
    rw [frameHeader_of_zero hz] at hstep
    exact ⟨_, hstep, State.raise_failed _ _, raise_pastHeader_frame s rest _⟩
  case excess =>
    rw [frameHeader_of_excess (s := s.pastHeader rest) hmax] at hstep
    exact ⟨_, hstep, State.raise_failed _ _, raise_pastHeader_frame s rest _⟩

/-! ## A failing source (R133, R134) -/

theorem step_srcFail_outstanding {d k n : Nat} (hi : s.inputs = .srcFail d k :: rest) (ho : s.out = some (.src n)) :
    step s = .next (sourceFailed d (s.pastAnswer rest k)) := by
  rw [step_srcFail hi]
  exact answerSourceFail_next.mpr ⟨n, ho, rfl⟩

theorem sourceFailed_of_hdrRead (hp : s.phase = .hdrRead) (d : Nat) : sourceFailed d s = s.raise .headerTooShort := by
  simp [sourceFailed, hp]

theorem sourceFailed_of_payRead (hp : s.phase = .payRead) (d : Nat) :
    sourceFailed d s = s.raise (.payloadShort (descOn s.par d)) :=
  if_pos hp

/-- R63: a description that meets its contract is reported as it is. -/
theorem descOn_of_lt {p : Params} {d : Nat} (h : d < 2 ^ p.descW) : descOn p d = d :=
  Nat.mod_eq_of_lt h

/-- R133, R134: an error raised on a failing source leaves the report, and the stream as the source has left it. -/
theorem raise_pastAnswer_frame (s : State) (rest : List Input) (k : Nat) (e : Err) :
    SameOperands s ((s.pastAnswer rest k).raise e) ∧ SameHidden s ((s.pastAnswer rest k).raise e) ∧
      SameHeader s ((s.pastAnswer rest k).raise e) ∧ SamePacket s ((s.pastAnswer rest k).raise e) ∧
      SameResult s ((s.pastAnswer rest k).raise e) ∧
      SameOutside { s with inputs := rest, stream := s.stream.drop k } ((s.pastAnswer rest k).raise e) :=
  ⟨⟨rfl, rfl, rfl, rfl, rfl⟩, ⟨rfl, rfl⟩, ⟨rfl, rfl, rfl⟩, ⟨rfl, rfl, rfl⟩, ⟨rfl, rfl, rfl⟩, ⟨rfl, rfl, rfl, rfl⟩⟩

/-- Settles O17: the phase chooses the error, and the description is within its width. -/
theorem sourceFailureEndsDecode : Obligations.SourceFailureEndsDecode := by
  intro s d k n rest hi ho hd
  have hstep := step_srcFail_outstanding hi ho
  refine ⟨fun hp => ?header, fun hp => ?payload⟩
  case header =>
    rw [sourceFailed_of_hdrRead (s := s.pastAnswer rest k) hp] at hstep
    exact ⟨_, hstep, State.raise_failed _ _, raise_pastAnswer_frame s rest k _⟩
  case payload =>
    rw [sourceFailed_of_payRead (s := s.pastAnswer rest k) hp] at hstep
    have hdesc : descOn (s.pastAnswer rest k).par d = d := descOn_of_lt hd
    rw [hdesc] at hstep
    exact ⟨_, hstep, State.raise_failed _ _, raise_pastAnswer_frame s rest k _⟩

/-! ## The stub source of R102 -/

/-- R130, R68, R102: a DECODE on the stream `st` of the stub source, one constructor per end of `decodeFrame`: its result,
the answers the source gives, and how many bytes it consumes. -/
inductive Framing (p : Params) (st : Bytes) (desc : Nat) : Except Err (Header × Bytes) → List Input → Nat → Prop where
  | headerTooShort (hl : st.length < 40) : Framing p st desc (.error .headerTooShort) [.srcFail desc 0] 0
  | invalidMagic (hl : 40 ≤ st.length) (hm : parseHeader (st.take 40) = none) :
      Framing p st desc (.error .invalidMagic) [.srcOk] 40
  | noPayloadLength {f : Header} (hl : 40 ≤ st.length) (hf : parseHeader (st.take 40) = some f) (hz : f.plen.toNat = 0) :
      Framing p st desc (.error .noPayloadLength) [.srcOk] 40
  | capacity {f : Header} (hl : 40 ≤ st.length) (hf : parseHeader (st.take 40) = some f)
      (hmax : p.maxPayload < f.plen.toNat) : Framing p st desc (.error .capacity) [.srcOk] 40
  | payloadShort {f : Header} (hl : 40 ≤ st.length) (hf : parseHeader (st.take 40) = some f) (hpos : 1 ≤ f.plen.toNat)
      (hmax : f.plen.toNat ≤ p.maxPayload) (hshort : (st.drop 40).length < f.plen.toNat) :
      Framing p st desc (.error (.payloadShort (descOn p desc))) [.srcOk, .srcFail desc 0] 40
  | packet {f : Header} (hl : 40 ≤ st.length) (hf : parseHeader (st.take 40) = some f) (hpos : 1 ≤ f.plen.toNat)
      (hmax : f.plen.toNat ≤ p.maxPayload) (hfull : f.plen.toNat ≤ (st.drop 40).length) :
      Framing p st desc (.ok (f, (st.drop 40).take f.plen.toNat)) [.srcOk, .srcOk] (40 + f.plen.toNat)

/-- The pure functions of DECODE agree on its end. -/
theorem framing (p : Params) (st : Bytes) (desc : Nat) :
    Framing p st desc (decodeFun p st desc) (sourceAnswers p st desc) (consumedBy p st desc) := by
  unfold consumedBy decodeFun sourceAnswers
  simp only [Config.headerLen]
  by_cases hl : st.length < 40
  · simpa [hl] using .headerTooShort hl
  have hl' := Nat.not_lt.mp hl
  cases hf : parseHeader (st.take 40) with
  | none => simpa [hl] using .invalidMagic hl' hf
  | some f =>
    by_cases hz : f.plen.toNat = 0
    · simpa [hl, hz] using .noPayloadLength hl' hf hz
    by_cases hmax : p.maxPayload < f.plen.toNat
    · simpa [hl, hz, hmax] using .capacity hl' hf hmax
    have hpos := Nat.one_le_iff_ne_zero.mpr hz
    have hmax' := Nat.not_lt.mp hmax
    by_cases hshort : (st.drop 40).length < f.plen.toNat
    · simpa only [hl, hz, hmax, hshort, or_self, if_true, if_false] using .payloadShort hl' hf hpos hmax' hshort
    · simpa only [hl, hz, hmax, hshort, or_self, if_false] using .packet hl' hf hpos hmax' (Nat.not_lt.mp hshort)

/-! ## From the wait for the header to the end (R131, R239) -/

theorem run_succ {t : State} (h : step s = .next t) (k : Nat) : Host.Core.run core (k + 1) s = Host.Core.run core k t := by
  simp [Host.Core.run, core, h]

theorem run_one {t : State} (h : step s = .next t) : Host.Core.run core 1 s = .next t :=
  run_succ h 0

/-- What DECODE leaves unchanged, and what it has taken from outside the block. -/
structure DecodeFrame (rest : List Input) (k : Nat) (s t : State) : Prop where
  inputs : t.inputs = rest
  par : t.par = s.par
  stream : t.stream = s.stream.drop k
  operands : SameOperands s t
  header : SameHeader s t
  result : SameResult s t

/-- R131, R193, R217: DECODE has ended with the result `r` of `decodeFrame`. -/
def State.DecodeEnded (t : State) : Except Err (Header × Bytes) → Prop
  | .error e => t.Failed e ∧ t.status.pktValid = false
  | .ok (f, p) => t.Succeeded ∧ HasPacket f p t

/-- R130 step 5: the Packet of the header in HBUF and a payload whose length fits PKT.PLEN. -/
theorem payloadArrived_hasPacket {f : Header} {p : Bytes} (hf : headerFields s.hbuf = f) (hp : p.length ≤ 2 ^ 32 - 1) :
    HasPacket f p (payloadArrived p s) := by
  subst hf
  exact ⟨rfl, rfl, rfl, rfl, rfl, toNat_ofNat32 hp, rfl, rfl⟩

/-- R220: an error end whose frames are those of one answer of the source. -/
theorem ended_of_failed {t : State} {e : Err} {k : Nat} (hpkt : s.status.pktValid = false) (hfailed : t.Failed e)
    (hoperands : SameOperands s t) (hheader : SameHeader s t) (hpacket : SamePacket s t) (hresult : SameResult s t)
    (hout : SameOutside { s with inputs := rest, stream := s.stream.drop k } t) :
    DecodeFrame rest k s t ∧ t.DecodeEnded (.error e) :=
  ⟨⟨hout.inputs, hout.par, hout.stream, hoperands, hheader, hresult⟩, hfailed, hpacket.valid.trans hpkt⟩

/-- The header has been taken, and the block waits for the payload it declares. -/
def State.asksPayload (rest : List Input) (f : Header) (s : State) : State :=
  (s.pastHeader rest).request (.src f.plen.toNat) .payRead

theorem step_header_word_legal {f : Header} (hi : s.inputs = .srcOk :: rest) (w : s.Waits .decode .hdrRead (.src 40))
    (hl : 40 ≤ s.stream.length) (hf : parseHeader (s.stream.take 40) = some f) (hpos : 1 ≤ f.plen.toNat)
    (hmax : f.plen.toNat ≤ s.par.maxPayload) :
    step s = .next (s.asksPayload rest f) := by
  rw [step_header_word hi w.phase w.out hl hf, frameHeader_of_legal (s := s.pastHeader rest) hpos hmax, State.asksPayload]

/-- R130 steps 2 to 5: with the stub's answers next, the wait for the header comes to the end of its framing. -/
theorem Framing.run {desc k : Nat} {r : Except Err (Header × Bytes)} {answers : List Input}
    (hfr : Framing s.par s.stream desc r answers k) (w : s.Waits .decode .hdrRead (.src 40))
    (hpkt : s.status.pktValid = false) (hi : s.inputs = answers ++ rest) :
    ∃ t, Host.Core.run core answers.length s = .next t ∧ DecodeFrame rest k s t ∧ t.DecodeEnded r := by
  cases hfr with
  | headerTooShort hl =>
    have hstep := step_srcFail_outstanding (rest := rest) hi w.out
    rw [sourceFailed_of_hdrRead (s := s.pastAnswer rest 0) w.phase] at hstep
    obtain ⟨hops, -, hhdr, hpacket, hres, hout⟩ := raise_pastAnswer_frame s rest 0 .headerTooShort
    exact ⟨_, run_one hstep, ended_of_failed hpkt (State.raise_failed _ _) hops hhdr hpacket hres hout⟩
  | invalidMagic hl hm =>
    have hmagic : s.stream.take 4 ≠ [0x55#8, 0x42#8, 0x4E#8, 0x54#8] := by
      rw [parseHeader_eq_none, magicMatches_take, List.take_take, beq_eq_false_iff_ne] at hm
      exact hm
    obtain ⟨t, hstep, hfailed, hops, -, -, hhdr, hpacket, hres, hout⟩ := wrongMagicEndsDecode s rest hi w.phase w.out hl hmagic
    exact ⟨t, run_one hstep, ended_of_failed hpkt hfailed hops hhdr hpacket hres hout⟩
  | noPayloadLength hl hf hz =>
    obtain ⟨t, hstep, hfailed, hops, -, -, hhdr, hpacket, hres, hout⟩ :=
      (declaredLengthChecked s rest _ hi w.phase w.out hl hf).1 hz
    exact ⟨t, run_one hstep, ended_of_failed hpkt hfailed hops hhdr hpacket hres hout⟩
  | capacity hl hf hmax =>
    obtain ⟨t, hstep, hfailed, hops, -, -, hhdr, hpacket, hres, hout⟩ :=
      (declaredLengthChecked s rest _ hi w.phase w.out hl hf).2 hmax
    exact ⟨t, run_one hstep, ended_of_failed hpkt hfailed hops hhdr hpacket hres hout⟩
  | @payloadShort f hl hf hpos hmax hshort =>
    have hheader := step_header_word_legal (rest := .srcFail desc 0 :: rest) hi w hl hf hpos hmax
    have hpayload := step_srcFail_outstanding (s := s.asksPayload (.srcFail desc 0 :: rest) f) (rest := rest) rfl rfl
    rw [sourceFailed_of_payRead rfl] at hpayload
    exact ⟨_, (run_succ hheader 1).trans (run_one hpayload),
      ⟨rfl, rfl, rfl, ⟨rfl, rfl, rfl, rfl, rfl⟩, ⟨rfl, rfl, rfl⟩, ⟨rfl, rfl, rfl⟩⟩, State.raise_failed _ _, hpkt⟩
  | @packet f hl hf hpos hmax hfull =>
    obtain ⟨-, hfields⟩ := parseHeader_eq_some.mp hf
    have hheader := step_header_word_legal (rest := .srcOk :: rest) hi w hl hf hpos hmax
    have hpayload := step_srcOk_pay (s := s.asksPayload (.srcOk :: rest) f) (rest := rest) rfl rfl rfl hfull
    have hlen : ((s.stream.drop 40).take f.plen.toNat).length ≤ 2 ^ 32 - 1 := by
      rw [List.length_take_of_le hfull]
      exact Nat.le_sub_one_of_lt f.plen.isLt
    exact ⟨_, (run_succ hheader 1).trans (run_one hpayload),
      ⟨rfl, rfl, List.drop_drop, ⟨rfl, rfl, rfl, rfl, rfl⟩, ⟨rfl, rfl, rfl⟩, ⟨rfl, rfl, rfl⟩⟩,
      ⟨rfl, rfl, w.err, w.kind, w.reason, w.info, rfl, rfl, rfl⟩, payloadArrived_hasPacket hfields hlen⟩

/-- DECODE has been accepted with `acts` queued behind it (R131). -/
def State.decoding (acts : List Input) (s : State) : State :=
  (({ s with inputs := acts } : State).accept.setOper (some .decode)).decodeBody

theorem step_decode {acts : List Input} (hb : s.status.busy = false) (hi : s.inputs = .write 0x00#8 [0x02#8] :: acts) :
    step s = .next (s.decoding acts) := by
  rw [step_command hi, commandWord_of_ne (by decide)]
  exact exec_decode_of_idle hb

theorem decoding_waits (s : State) (acts : List Input) : (s.decoding acts).Waits .decode .hdrRead (.src 40) :=
  ⟨rfl, rfl, rfl, rfl, rfl, rfl, rfl, rfl, rfl⟩

/-- Settles O19: acceptance leads to the wait for the header, and from there the framing runs to its end. -/
theorem decodeRefinesFramer : Obligations.DecodeRefinesFramer := by
  intro s desc rest hb hi
  obtain ⟨t, hrun, hframe, hended⟩ :=
    Framing.run (s := s.decoding (sourceAnswers s.par s.stream desc ++ rest)) (framing s.par s.stream desc)
      (decoding_waits s _) rfl rfl
  rw [Nat.add_comm, run_succ (step_decode hb hi), hrun]
  refine ⟨t, rfl, hframe.inputs, hframe.par, hframe.stream, { hframe.operands with }, { hframe.header with },
    { hframe.result with }, fun e he => ?error, fun f p hr => ?packet⟩
  case error => rwa [he] at hended
  case packet => rwa [hr] at hended

end Sys2Proof.Machine
end

section
/-! SUPPORT. DECRYPT: its acceptance and preconditions, the cipher's answer to it, and the whole operation (R145 to R150). -/

open Sys2Proof

namespace Sys2Proof.Machine

variable {s t : State} {key iv d u : Bytes} {acts rest : List Input}

/-! ## The preconditions of `decrypt` (R145, R147, R148) -/

theorem startDecrypt_of_key_length (hk : key.length ≠ 16) : s.startDecrypt key iv = s.raise .invalidKey :=
  if_pos hk

theorem startDecrypt_of_partial_block (hk : key.length = 16) (hl : s.wbuf.length % 16 ≠ 0) :
    s.startDecrypt key iv = s.raise .notPadded :=
  (if_neg (not_not_intro hk)).trans (if_pos hl)

theorem startDecrypt_of_whole_blocks (hk : key.length = 16) (hl : s.wbuf.length % 16 = 0) :
    s.startDecrypt key iv = s.request (.ciph key iv s.wbuf) .ciphWait :=
  (if_neg (not_not_intro hk)).trans (if_neg (not_not_intro hl))

theorem decryptFun_of_key_length {c : Bytes} (hk : key.length ≠ 16) : decryptFun key iv c = .error .invalidKey :=
  if_pos hk

theorem decryptFun_of_partial_block {c : Bytes} (hk : key.length = 16) (hl : c.length % 16 ≠ 0) :
    decryptFun key iv c = .error .notPadded :=
  (if_neg (not_not_intro hk)).trans (if_pos hl)

theorem decryptFun_of_whole_blocks {c : Bytes} (hk : key.length = 16) (hl : c.length % 16 = 0) :
    decryptFun key iv c = unpad (Config.cbcDecrypt key iv c) :=
  (if_neg (not_not_intro hk)).trans (if_neg (not_not_intro hl))

/-! ## The instruction (R146) -/

/-- DECRYPT has been accepted: the result is discarded, and WBUF holds the private copy of IBUF. -/
def State.decrypting (s : State) : State :=
  (s.accept.setOper (some .decrypt)).clearResult.setWork s.ibuf

theorem exec_decrypt_of_idle (hb : s.status.busy = false) :
    exec .decrypt s = .next (s.decrypting.startDecrypt s.key s.opiv) :=
  command_of_idle s _ _ hb

/-- R147, R148: a failed precondition leaves what acceptance has left, and the report beside it. -/
theorem raise_decrypting_frame (s : State) (e : Err) :
    ClearedResult s (s.decrypting.raise e) ∧ SameOperands s (s.decrypting.raise e) ∧
      WorkIs s.ibuf s (s.decrypting.raise e) ∧ SameHeader s (s.decrypting.raise e) ∧
      SamePacket s (s.decrypting.raise e) ∧ SameOutside s (s.decrypting.raise e) :=
  ⟨⟨rfl, rfl, rfl⟩, ⟨rfl, rfl, rfl, rfl, rfl⟩, ⟨rfl, rfl⟩, ⟨rfl, rfl, rfl⟩, ⟨rfl, rfl, rfl⟩, ⟨rfl, rfl, rfl, rfl⟩⟩

/-- Settles O24: the key's length is tested first, then the length of the private copy. -/
theorem decryptPreconditionsInOrder : Obligations.DecryptPreconditionsInOrder := by
  intro s hb
  have hx := exec_decrypt_of_idle hb
  refine ⟨fun hk => ?keyLength, fun hk hl => ?partialBlock⟩
  case keyLength =>
    rw [startDecrypt_of_key_length hk] at hx
    exact ⟨_, hx, State.raise_failed _ _, raise_decrypting_frame s _⟩
  case partialBlock =>
    rw [startDecrypt_of_partial_block (s := s.decrypting) hk hl] at hx
    exact ⟨_, hx, State.raise_failed _ _, raise_decrypting_frame s _⟩

/-- Settles O23: both preconditions hold of the private copy, and the one request is made on it. -/
theorem decryptCallsCipher : Obligations.DecryptCallsCipher := by
  intro s hb hk hl
  have hx := exec_decrypt_of_idle hb
  rw [startDecrypt_of_whole_blocks (s := s.decrypting) hk hl] at hx
  exact ⟨_, hx, ⟨rfl, rfl, rfl, rfl, rfl, rfl, rfl, rfl, rfl⟩, ⟨rfl, rfl⟩, ⟨rfl, rfl, rfl⟩, ⟨rfl, rfl, rfl, rfl, rfl⟩,
    ⟨rfl, rfl, rfl⟩, ⟨rfl, rfl, rfl⟩, ⟨rfl, rfl, rfl, rfl⟩⟩

theorem step_decrypt : step { s with inputs := .write 0x00#8 [0x03#8] :: acts } = exec .decrypt { s with inputs := acts } := by
  rw [step_command rfl, commandWord_of_ne (by decide), runWord_of_ok rfl]

/-! ## What DECRYPT leaves unchanged -/

/-- The operands, the header and packet groups, and what is outside the block but for its record; `rest` is queued. -/
structure DecryptFrame (rest : List Input) (s t : State) : Prop where
  inputs : t.inputs = rest
  par : t.par = s.par
  stream : t.stream = s.stream
  operands : SameOperands s t
  header : SameHeader s t
  packet : SamePacket s t

theorem DecryptFrame.withInputs (h : DecryptFrame acts s t) (rest : List Input) :
    DecryptFrame rest s { t with inputs := rest } :=
  ⟨rfl, h.par, h.stream, { h.operands with }, { h.header with }, { h.packet with }⟩

theorem exec_decrypt_frame (hx : exec .decrypt { s with inputs := acts } = .next t) : DecryptFrame acts s t := by
  obtain ⟨hb, -⟩ := command_next.mp hx
  obtain rfl := Host.Outcome.next.inj ((exec_decrypt_of_idle hb).symm.trans hx)
  obtain ⟨-, hs⟩ | ⟨-, -, hs⟩ | ⟨-, -, hs⟩ := startDecrypt_cases ({ s with inputs := acts } : State).decrypting s.key s.opiv
  all_goals exact hs ▸ ⟨rfl, rfl, rfl, ⟨rfl, rfl, rfl, rfl, rfl⟩, ⟨rfl, rfl, rfl⟩, ⟨rfl, rfl, rfl⟩⟩

/-! ## The cipher's answer (R145, R150) -/

theorem cipherAnswered_of_error {e : Err} (hu : unpad d = .error e) : cipherAnswered d s = (s.setWork d).raise e := by
  simp [cipherAnswered, hu]

theorem cipherAnswered_of_decrypt (ho : s.oper = some .decrypt) (hu : unpad d = .ok u) :
    cipherAnswered d s = ((s.setWork d).setWork u).finishWork := by
  simp [cipherAnswered, hu, State.resolving, ho]

/-- R146, R193, R217: DECRYPT, accepted in `s`, has ended in `t` with the result `r` of `decrypt`. -/
def DecryptEnded (s t : State) : Except Err Bytes → Prop
  | .error e => t.Failed e ∧ ClearedResult s t
  | .ok u => t.Succeeded ∧ HasResult u t

/-- The remover decides the end; a plaintext is shorter than the answer, so its length fits RLEN. -/
theorem cipherAnswered_ends {r : Request} (hw : t.Waits .decrypt .ciphWait r) (hc : ClearedResult s t)
    (hf : DecryptFrame rest s t) (hd : d.length ≤ 2 ^ 32 - 1) :
    DecryptFrame rest s (cipherAnswered d t) ∧ DecryptEnded s (cipherAnswered d t) (unpad d) := by
  cases hu : unpad d with
  | error e =>
    rw [cipherAnswered_of_error hu]
    exact ⟨⟨hf.inputs, hf.par, hf.stream, { hf.operands with }, { hf.header with }, { hf.packet with }⟩,
      State.raise_failed _ _, hc.rbuf, hc.rlen, hc.valid⟩
  | ok u =>
    have hlen : u.length ≤ 2 ^ 32 - 1 := (unpad_length hu).le.trans hd
    rw [cipherAnswered_of_decrypt hw.oper hu]
    exact ⟨⟨hf.inputs, hf.par, hf.stream, { hf.operands with }, { hf.header with }, { hf.packet with }⟩,
      ⟨rfl, rfl, hw.err, hw.kind, hw.reason, hw.info, rfl, rfl, rfl⟩, rfl, toNat_ofNat32 hlen, rfl⟩

theorem step_ciphAnswer_outstanding {c : Bytes} (hi : s.inputs = .ciphAnswer :: rest) (ho : s.out = some (.ciph key iv c)) :
    step s = .next (cipherAnswered (Config.cbcDecrypt key iv c) { s with inputs := rest }) := by
  rw [step_ciphAnswer hi]
  exact answerCipher_next.mpr ⟨key, iv, c, ho, rfl⟩

/-! ## The whole operation -/

/-- R145, R146: a failed precondition ends DECRYPT at its acceptance, otherwise the cipher's one answer ends it. -/
theorem decrypt_run (hinv : s.Inv) (hb : s.status.busy = false) (rest : List Input) :
    ∃ answers : List Input, (answers = [] ∨ answers = [.ciphAnswer]) ∧
      ∃ t, Host.Core.run core (1 + answers.length) { s with inputs := .write 0x00#8 [0x03#8] :: (answers ++ rest) } = .next t ∧
        DecryptFrame rest s t ∧ DecryptEnded s t (decryptFun s.key s.opiv s.ibuf) := by
  by_cases hk : s.key.length = 16
  case neg =>
    obtain ⟨t, hx, hfailed, hcleared, -⟩ := (decryptPreconditionsInOrder { s with inputs := rest } hb).1 hk
    rw [decryptFun_of_key_length hk]
    exact ⟨[], .inl rfl, t, run_one (step_decrypt.trans hx), exec_decrypt_frame hx, hfailed, { hcleared with }⟩
  by_cases hl : s.ibuf.length % 16 = 0
  case neg =>
    obtain ⟨t, hx, hfailed, hcleared, -⟩ := (decryptPreconditionsInOrder { s with inputs := rest } hb).2 hk hl
    rw [decryptFun_of_partial_block hk hl]
    exact ⟨[], .inl rfl, t, run_one (step_decrypt.trans hx), exec_decrypt_frame hx, hfailed, { hcleared with }⟩
  obtain ⟨t, hx, hwaits, -, hcleared, -⟩ := decryptCallsCipher { s with inputs := .ciphAnswer :: rest } hb hk hl
  have hframe := exec_decrypt_frame hx
  have hanswer := step_ciphAnswer_outstanding hframe.inputs hwaits.out
  have hlen : (Config.cbcDecrypt s.key s.opiv s.ibuf).length ≤ 2 ^ 32 - 1 :=
    (cbcDecrypt_length _ _ _).trans_le (Inv.ibuf_le hinv.toDataOk)
  rw [decryptFun_of_whole_blocks hk hl]
  exact ⟨[.ciphAnswer], .inr rfl, _, (run_succ (step_decrypt.trans hx) 1).trans (run_one hanswer),
    cipherAnswered_ends { hwaits with } { hcleared with } (hframe.withInputs rest) hlen⟩

/-- Settles O25: the run to the end, with its frame and its result read off. -/
theorem decryptRefinesWrapper : Obligations.DecryptRefinesWrapper := by
  intro s rest hinv hb
  obtain ⟨answers, hanswers, t, hrun, hframe, hended⟩ := decrypt_run hinv hb rest
  refine ⟨answers, hanswers, t, hrun, hframe.inputs, hframe.stream, hframe.par, hframe.operands, hframe.header,
    hframe.packet, fun e he => ?error, fun u hu => ?plaintext⟩
  case error => rwa [he] at hended
  case plaintext => rwa [hu] at hended

end Sys2Proof.Machine
end

section
/-! SUPPORT. UNPAD: the remover's checks in their order, and the command's two outcomes (R160, R161). -/

open Sys2Proof

namespace Sys2Proof.Machine

variable {s : State} {b u : Bytes} {x : Byte}

/-! ## The remover's failures (R160) -/

theorem unpad_of_bad_count (hx : b.getLast? = some x) (hn : x.toNat = 0 ∨ b.length < x.toNat) :
    unpad b = .error .notPadded := by
  simp [unpad, hx, hn]

theorem unpad_of_mismatch (hx : b.getLast? = some x) (hpos : 1 ≤ x.toNat) (hle : x.toNat ≤ b.length)
    (hne : ∃ y ∈ b.drop (b.length - x.toNat), y ≠ x) : unpad b = .error .structureInvalid := by
  have hn : ¬(x.toNat = 0 ∨ b.length < x.toNat) := by omega
  have hall : ¬(b.drop (b.length - x.toNat)).all (fun y => y == x) = true := by simpa using hne
  simp only [unpad, hx, hn, hall, if_false, Bool.false_eq_true]

/-- Settles O20: the last byte chooses the check that decides, and a tail of `n` bytes `n` is the accepted padding. -/
theorem unpadChecksInOrder : Obligations.UnpadChecksInOrder := by
  refine ⟨rfl, fun p x => ?_⟩
  have hx : (p ++ [x]).getLast? = some x := List.getLast?_concat
  refine ⟨unpad_of_bad_count hx, fun hpos hle => ⟨unpad_of_mismatch hx hpos hle, fun heq => ?_⟩⟩
  have hlen : ((p ++ [x]).drop ((p ++ [x]).length - x.toNat)).length = x.toNat := by
    rw [List.length_drop, Nat.sub_sub_self hle]
  exact unpad_eq_ok.mpr ⟨x, hx, hpos, hle, List.eq_replicate_iff.mpr ⟨hlen, heq⟩, rfl⟩

/-! ## The command (R161) -/

/-- UNPAD has been accepted: the result is discarded, and WBUF holds the private copy of IBUF. -/
def State.unpadding (s : State) : State :=
  (s.accept.setOper (some .unpad)).clearResult.setWork s.ibuf

theorem exec_unpad_of_error {e : Err} (hb : s.status.busy = false) (hu : unpad s.ibuf = .error e) :
    exec .unpad s = .next (s.unpadding.raise e) := by
  have hbody : (s.accept.setOper (some .unpad)).unpadBody = s.unpadding.raise e := by
    simp [State.unpadBody, State.unpadding, hu]
  exact command_next.mpr ⟨hb, hbody.symm⟩

theorem exec_unpad_of_ok (hb : s.status.busy = false) (hu : unpad s.ibuf = .ok u) :
    exec .unpad s = .next (s.unpadding.setWork u).finishWork := by
  have hbody : (s.accept.setOper (some .unpad)).unpadBody = (s.unpadding.setWork u).finishWork := by
    simp [State.unpadBody, State.unpadding, hu]
  exact command_next.mpr ⟨hb, hbody.symm⟩

/-- Settles O22: the remover decides the end; what it returns is shorter than IBUF, so its length fits RLEN. -/
theorem unpadCommandRunsRemover : Obligations.UnpadCommandRunsRemover := by
  intro s hb hilen
  refine ⟨fun u hu => ?removed, fun e he => ?failed⟩
  case removed =>
    have hlen : u.length ≤ 2 ^ 32 - 1 :=
      (unpad_length hu).le.trans (hilen ▸ Nat.le_sub_one_of_lt s.ilen.isLt)
    have haccepted : (s.unpadding.setWork u).commitResult.Accepted := ⟨rfl, rfl, rfl, rfl, rfl, rfl⟩
    exact ⟨_, exec_unpad_of_ok hb hu, haccepted.complete_succeeded, ⟨rfl, toNat_ofNat32 hlen, rfl⟩,
      ⟨rfl, rfl, rfl, rfl, rfl⟩, ⟨rfl, rfl⟩, ⟨rfl, rfl, rfl⟩, ⟨rfl, rfl, rfl⟩, ⟨rfl, rfl, rfl, rfl⟩⟩
  case failed =>
    exact ⟨_, exec_unpad_of_error hb he, State.raise_failed _ _, ⟨rfl, rfl, rfl⟩, ⟨rfl, rfl, rfl, rfl, rfl⟩, ⟨rfl, rfl⟩,
      ⟨rfl, rfl, rfl⟩, ⟨rfl, rfl, rfl⟩, ⟨rfl, rfl, rfl, rfl⟩⟩

end Sys2Proof.Machine
end

section
/-! SUPPORT. RESOLVE: its acceptance by the class of the stored flags, the later stages, the decompressor's answer, and the
whole operation (R170 to R178). -/

open Sys2Proof

namespace Sys2Proof.Machine

variable {s t : State} {i : Instr} {acts rest : List Input} {key iv d r : Bytes} {f : BitVec 16} {p : Params}

/-! ## Acceptance (R171) -/

/-- RESOLVE has been accepted: the result is discarded, and WBUF holds the copy of PBUF. -/
def State.payloadCopied (s : State) : State :=
  (s.accept.setOper (some .resolve)).startResolve

theorem exec_resolve_of_encrypted (hb : s.status.busy = false) (hp : s.status.pktValid = true)
    (he : isEncrypted s.pkt.flags = true) :
    exec .resolve s = .next (s.payloadCopied.startDecrypt s.key s.pkt.iv) :=
  (resolve_of_packet s hb hp).trans (congrArg _ (if_pos he))

theorem exec_resolve_of_unencrypted (hb : s.status.busy = false) (hp : s.status.pktValid = true)
    (he : isEncrypted s.pkt.flags = false) :
    exec .resolve s = .next s.payloadCopied.afterDecrypt :=
  (resolve_of_packet s hb hp).trans (congrArg _ (if_neg (Bool.eq_false_iff.mp he)))

/-- R171, R194 reason 3: without a Packet, RESOLVE and every second-level opcode have one effect. -/
theorem exec_without_packet (hb : s.status.busy = false) (hp : s.status.pktValid = false) (rest : BitVec 16)
    (hi : i ∈ [Instr.resolve, .resolveF0 rest, .resolveF1 rest, .resolveF2 rest, .resolveF3 rest, .resolveF4 rest,
      .resolveF5 rest, .resolveF6 rest, .resolveF7 rest]) :
    exec i s = .next ((s.accept.setOper (some .resolve)).raise .noPacket) := by
  rw [List.mem_cons] at hi
  obtain rfl | hi := hi
  case inl =>
    have hbody : (s.accept.setOper (some .resolve)).resolveBody = (s.accept.setOper (some .resolve)).raise .noPacket :=
      if_neg (Bool.eq_false_iff.mp hp)
    exact command_next.mpr ⟨hb, hbody.symm⟩
  case inr =>
    simp only [List.mem_cons, List.not_mem_nil, or_false] at hi
    obtain rfl | rfl | rfl | rfl | rfl | rfl | rfl | rfl := hi <;> exact secondLevel_without_packet s _ _ hb hp

/-- Settles O27: acceptance and the error entry write STATUS, the report, PHASE and OUT alone. -/
theorem resolveWithoutPacketRefused : Obligations.ResolveWithoutPacketRefused := by
  intro s rest i hb hp hi
  exact ⟨_, exec_without_packet hb hp rest hi, State.raise_failed _ _, ⟨rfl, rfl, rfl, rfl, rfl⟩, ⟨rfl, rfl⟩, ⟨rfl, rfl, rfl⟩,
    ⟨rfl, rfl, rfl⟩, ⟨rfl, rfl, rfl⟩, ⟨rfl, rfl, rfl, rfl⟩⟩

/-! ## The class of the flags (R93, R101) -/

theorem flag_tests_of_mask {m : BitVec 16} (hm : f &&& 0x0007#16 = m) :
    isEncrypted f = (m.extractLsb' 0 3).getLsbD 0 ∧ isCompressed f = (m.extractLsb' 0 3).getLsbD 1 ∧
      isSnappy f = (m.extractLsb' 0 3).getLsbD 2 :=
  flagsClass_of_mask f m hm ▸ flag_tests_of_class f

/-- R94, R101: the second-level opcode of the stored flags does what RESOLVE does, whatever its operand is. -/
theorem exec_eq_resolve {opcode : BitVec 16 → Instr} {rest : BitVec 16} (hb : s.status.busy = false)
    (hp : s.status.pktValid = true) (hd : decodeFlags s.pkt.flags = opcode (flagsRest s.pkt.flags))
    (hoperand : ∀ a b, exec (opcode a) s = exec (opcode b) s) (hi : i ∈ [Instr.resolve, opcode rest]) :
    exec i s = exec .resolve s := by
  simp only [List.mem_cons, List.not_mem_nil, or_false] at hi
  obtain rfl | rfl := hi
  · rfl
  · rw [hoperand rest (flagsRest s.pkt.flags)]
    exact (resolveIsItsSecondLevelOpcode s _ hb hp (congrArg Except.ok hd)).symm

/-! ## What acceptance leaves behind -/

theorem raise_payloadCopied_frame (s : State) (e : Err) :
    ClearedResult s (s.payloadCopied.raise e) ∧ SameOperands s (s.payloadCopied.raise e) ∧
      WorkIs s.pbuf s (s.payloadCopied.raise e) ∧ SameHeader s (s.payloadCopied.raise e) ∧
      SamePacket s (s.payloadCopied.raise e) ∧ SameOutside s (s.payloadCopied.raise e) :=
  ⟨⟨rfl, rfl, rfl⟩, ⟨rfl, rfl, rfl, rfl, rfl⟩, ⟨rfl, rfl⟩, ⟨rfl, rfl, rfl⟩, ⟨rfl, rfl, rfl⟩, ⟨rfl, rfl, rfl, rfl⟩⟩

theorem request_payloadCopied_frame (s : State) (q : Request) (ph : Phase) :
    (s.payloadCopied.request q ph).Waits .resolve ph q ∧ ClearedResult s (s.payloadCopied.request q ph) ∧
      SameOperands s (s.payloadCopied.request q ph) ∧ WorkIs s.pbuf s (s.payloadCopied.request q ph) ∧
      SameHeader s (s.payloadCopied.request q ph) ∧ SamePacket s (s.payloadCopied.request q ph) ∧
      SameOutside { s with obs := .request q :: s.obs } (s.payloadCopied.request q ph) :=
  ⟨⟨rfl, rfl, rfl, rfl, rfl, rfl, rfl, rfl, rfl⟩, ⟨rfl, rfl, rfl⟩, ⟨rfl, rfl, rfl, rfl, rfl⟩, ⟨rfl, rfl⟩, ⟨rfl, rfl, rfl⟩,
    ⟨rfl, rfl, rfl⟩, ⟨rfl, rfl, rfl, rfl⟩⟩

/-! ## The later stages (R170 steps 3 to 5) -/

theorem afterDecrypt_of_compressed (hc : isCompressed s.pkt.flags = true) : s.afterDecrypt = s.raise .compressedFlag :=
  if_pos hc

theorem afterDecrypt_of_snappy (hc : isCompressed s.pkt.flags = false) (hz : isSnappy s.pkt.flags = true) :
    s.afterDecrypt = s.snappyStage := by
  simp [State.afterDecrypt, hc, hz]

theorem afterDecrypt_of_plain (hc : isCompressed s.pkt.flags = false) (hz : isSnappy s.pkt.flags = false) :
    s.afterDecrypt = s.finishWork := by
  simp [State.afterDecrypt, hc, hz]

theorem snappyStage_of_short (hl : s.wbuf.length < 10) : s.snappyStage = s.raise .shorterThanTrailer :=
  if_pos hl

theorem snappyStage_of_trailer (hl : 10 ≤ s.wbuf.length) :
    s.snappyStage = s.request (.dcmp (withoutTrailer s.wbuf)) .dcmpWait :=
  if_neg (Nat.not_lt.mpr hl)

/-! ## The rows of the table (R101) -/

/-- Settles O28: no stage is selected, and the copy of the payload is the result. -/
theorem resolvePlainReturnsPayload : Obligations.ResolvePlainReturnsPayload := by
  intro s rest i hb hp hm hplen hi
  obtain ⟨he, hc, hz⟩ := flag_tests_of_mask hm
  have hx : exec i s = .next s.payloadCopied.finishWork := by
    rw [exec_eq_resolve hb hp (by simp [decodeFlags, he, hc, hz]) (fun _ _ => rfl) hi, exec_resolve_of_unencrypted hb hp he,
      afterDecrypt_of_plain (s := s.payloadCopied) hc hz]
  have hrlen : BitVec.ofNat 32 s.pbuf.length = s.pkt.plen := by
    rw [← hplen, BitVec.ofNat_toNat, BitVec.setWidth_eq]
  exact ⟨_, hx, ⟨rfl, rfl, rfl, rfl, rfl, rfl, rfl, rfl, rfl⟩, ⟨rfl, (congrArg BitVec.toNat hrlen).trans hplen, rfl⟩, hrlen,
    ⟨rfl, rfl, rfl, rfl, rfl⟩, ⟨rfl, rfl⟩, ⟨rfl, rfl, rfl⟩, ⟨rfl, rfl, rfl⟩, ⟨rfl, rfl, rfl, rfl⟩⟩

/-- Settles O29: both rows stop at the legacy stage, before any request. -/
theorem resolveLegacyUnsupported : Obligations.ResolveLegacyUnsupported := by
  intro s rest i hb hp hrow
  have hx : exec i s = .next (s.payloadCopied.raise .compressedFlag) := by
    obtain ⟨hm, hi⟩ | ⟨hm, hi⟩ := hrow <;> obtain ⟨he, hc, hz⟩ := flag_tests_of_mask hm
    all_goals
      rw [exec_eq_resolve hb hp (by simp [decodeFlags, he, hc, hz]) (fun _ _ => rfl) hi,
        exec_resolve_of_unencrypted hb hp he,
        afterDecrypt_of_compressed (s := s.payloadCopied) hc]
  exact ⟨_, hx, State.raise_failed _ _, raise_payloadCopied_frame s _⟩

/-- Settles O30: the snappy stage alone is selected, and the payload's length decides it. -/
theorem resolveSnappyStripsTrailer : Obligations.ResolveSnappyStripsTrailer := by
  intro s rest i hb hp hm hi
  obtain ⟨he, hc, hz⟩ := flag_tests_of_mask hm
  have hx : exec i s = .next s.payloadCopied.snappyStage := by
    rw [exec_eq_resolve hb hp (by simp [decodeFlags, he, hc, hz]) (fun _ _ => rfl) hi, exec_resolve_of_unencrypted hb hp he,
      afterDecrypt_of_snappy (s := s.payloadCopied) hc hz]
  refine ⟨fun hl => ?trailer, fun hl => ?short⟩
  case trailer =>
    rw [snappyStage_of_trailer (s := s.payloadCopied) hl] at hx
    exact ⟨_, hx, request_payloadCopied_frame s _ _⟩
  case short =>
    rw [snappyStage_of_short (s := s.payloadCopied) hl] at hx
    exact ⟨_, hx, State.raise_failed _ _, raise_payloadCopied_frame s _⟩

/-- Settles O31: the four rows begin with the decrypt stage, on the host's KEY, the Packet's iv and the payload. -/
theorem resolveEncryptedCallsCipher : Obligations.ResolveEncryptedCallsCipher := by
  intro s rest i hb hp hrow
  have hx : exec i s = .next (s.payloadCopied.startDecrypt s.key s.pkt.iv) := by
    obtain ⟨hm, hi⟩ | ⟨hm, hi⟩ | ⟨hm, hi⟩ | ⟨hm, hi⟩ := hrow <;> obtain ⟨he, hc, hz⟩ := flag_tests_of_mask hm
    all_goals
      rw [exec_eq_resolve hb hp (by simp [decodeFlags, he, hc, hz]) (fun _ _ => rfl) hi, exec_resolve_of_encrypted hb hp he]
  refine ⟨fun hk hl => ?called, fun hk => ?keyLength, fun hk hl => ?partialBlock⟩
  case called =>
    rw [startDecrypt_of_whole_blocks (s := s.payloadCopied) hk hl] at hx
    exact ⟨_, hx, request_payloadCopied_frame s _ _⟩
  case keyLength =>
    rw [startDecrypt_of_key_length hk] at hx
    exact ⟨_, hx, State.raise_failed _ _, raise_payloadCopied_frame s _⟩
  case partialBlock =>
    rw [startDecrypt_of_partial_block (s := s.payloadCopied) hk hl] at hx
    exact ⟨_, hx, State.raise_failed _ _, raise_payloadCopied_frame s _⟩

/-! ## What the pure functions say (R145, R170) -/

/-- R170 step 4 after the decompressor's answer, R178: its error, or the final bytes. -/
def decompressedFun (p : Params) : DcmpAnswer → Except Err Bytes
  | .fail desc => .error (.decompressFailed (descOn p desc))
  | .ok o => if p.maxResult < o.length then .error .capacity else .ok o

theorem decompressedFun_of_excess {o : Bytes} (ho : p.maxResult < o.length) :
    decompressedFun p (.ok o) = .error .capacity :=
  if_pos ho

theorem decompressedFun_of_fitting {o : Bytes} (ho : o.length ≤ p.maxResult) : decompressedFun p (.ok o) = .ok o :=
  if_neg (Nat.not_lt.mpr ho)

theorem laterStagesFun_of_compressed (hc : isCompressed f = true) : laterStagesFun p f r = .error .compressedFlag :=
  if_pos (bne_iff_ne.mp hc)

theorem laterStagesFun_of_plain (hc : isCompressed f = false) (hz : isSnappy f = false) : laterStagesFun p f r = .ok r := by
  have hc : f &&& Config.flagCompressed = 0#16 := bne_eq_false_iff_eq.mp hc
  have hz : f &&& Config.flagSnappy = 0#16 := bne_eq_false_iff_eq.mp hz
  simp [laterStagesFun, hc, hz]

theorem laterStagesFun_of_short (hc : isCompressed f = false) (hz : isSnappy f = true) (hl : r.length < 10) :
    laterStagesFun p f r = .error .shorterThanTrailer := by
  have hc : f &&& Config.flagCompressed = 0#16 := bne_eq_false_iff_eq.mp hc
  have hz : f &&& Config.flagSnappy ≠ 0#16 := bne_iff_ne.mp hz
  simp [laterStagesFun, hc, hz, Config.trailerLen, hl]

theorem laterStagesFun_of_trailer (hc : isCompressed f = false) (hz : isSnappy f = true) (hl : 10 ≤ r.length) :
    laterStagesFun p f r = decompressedFun p (Config.decompress (withoutTrailer r)) := by
  have hc : f &&& Config.flagCompressed = 0#16 := bne_eq_false_iff_eq.mp hc
  have hz : f &&& Config.flagSnappy ≠ 0#16 := bne_iff_ne.mp hz
  have hl : ¬r.length < Config.trailerLen := Nat.not_lt.mpr hl
  rw [laterStagesFun, if_neg (not_not_intro hc), if_pos hz, if_neg hl]
  rfl

theorem resolveFun_of_unencrypted (he : isEncrypted f = false) : resolveFun p f iv r key = laterStagesFun p f r :=
  if_neg (not_not_intro (bne_eq_false_iff_eq.mp he))

theorem resolveFun_of_error {e : Err} (he : isEncrypted f = true) (hd : decryptFun key iv d = .error e) :
    resolveFun p f iv d key = .error e := by
  rw [resolveFun, if_pos (bne_iff_ne.mp he), hd]

theorem resolveFun_of_plaintext (he : isEncrypted f = true) (hd : decryptFun key iv d = .ok r) :
    resolveFun p f iv d key = laterStagesFun p f r := by
  rw [resolveFun, if_pos (bne_iff_ne.mp he), hd]

/-! ## The ends of RESOLVE (R193, R217)

The frame and the end of RESOLVE are those of DECRYPT: `DecryptFrame` and `DecryptEnded`. -/

/-- RESOLVE, accepted in `s`, is at its later stages in `t`, with the working value `r` and `acts` queued. -/
structure AtLaterStages (s : State) (r : Bytes) (acts : List Input) (t : State) : Prop where
  accepted : t.Accepted
  work : t.wbuf = r
  cleared : ClearedResult s t
  frame : DecryptFrame acts s t

theorem payloadCopied_atLaterStages (s : State) (acts : List Input) :
    AtLaterStages s s.pbuf acts ({ s with inputs := acts } : State).payloadCopied :=
  ⟨⟨rfl, rfl, rfl, rfl, rfl, rfl⟩, rfl, ⟨rfl, rfl, rfl⟩, rfl, rfl, rfl, ⟨rfl, rfl, rfl, rfl, rfl⟩, ⟨rfl, rfl, rfl⟩,
    ⟨rfl, rfl, rfl⟩⟩

/-- The request `q` has been made, and the act that answers it has been taken. -/
def State.answering (q : Request) (ph : Phase) (rest : List Input) (t : State) : State :=
  { t.request q ph with inputs := rest }

namespace AtLaterStages

theorem setWork (h : AtLaterStages s r acts t) (b : Bytes) : AtLaterStages s b acts (t.setWork b) :=
  ⟨{ h.accepted with }, rfl, { h.cleared with },
    h.frame.inputs, h.frame.par, h.frame.stream, { h.frame.operands with }, { h.frame.header with }, { h.frame.packet with }⟩

/-- An answer to a request made at the later stages finds the block at them. -/
theorem answering (h : AtLaterStages s r acts t) (q : Request) (ph : Phase) (rest : List Input) :
    AtLaterStages s r rest (t.answering q ph rest) :=
  ⟨{ h.accepted with }, h.work, { h.cleared with },
    rfl, h.frame.par, h.frame.stream, { h.frame.operands with }, { h.frame.header with }, { h.frame.packet with }⟩

theorem raise (h : AtLaterStages s r acts t) (e : Err) :
    DecryptFrame acts s (t.raise e) ∧ DecryptEnded s (t.raise e) (.error e) :=
  ⟨⟨h.frame.inputs, h.frame.par, h.frame.stream, { h.frame.operands with }, { h.frame.header with }, { h.frame.packet with }⟩,
    State.raise_failed e t, { h.cleared with }⟩

theorem finishWork (h : AtLaterStages s r acts t) (hr : r.length ≤ 2 ^ 32 - 1) :
    DecryptFrame acts s t.finishWork ∧ DecryptEnded s t.finishWork (.ok r) := by
  obtain rfl := h.work
  have a := h.accepted
  exact ⟨⟨h.frame.inputs, h.frame.par, h.frame.stream, { h.frame.operands with }, { h.frame.header with },
      { h.frame.packet with }⟩,
    ⟨rfl, rfl, a.err, a.kind, a.reason, a.info, rfl, rfl, rfl⟩, rfl, toNat_ofNat32 hr, rfl⟩

/-- R170 step 4, R178: the decompressor's answer ends RESOLVE; an accepted output fits RLEN, by MAX_RESULT. -/
theorem decompressorAnswered (h : AtLaterStages s r acts t) (hp : s.par.wf = true) (a : DcmpAnswer) :
    DecryptFrame acts s (decompressorAnswered a t) ∧ DecryptEnded s (decompressorAnswered a t) (decompressedFun s.par a) := by
  rw [← h.frame.par] at hp ⊢
  cases a with
  | fail desc => exact h.raise _
  | ok o =>
    by_cases ho : t.par.maxResult < o.length
    case pos =>
      have hend : Machine.decompressorAnswered (.ok o) t = t.raise .capacity := if_pos ho
      rw [hend, decompressedFun_of_excess ho]
      exact h.raise _
    case neg =>
      have hend : Machine.decompressorAnswered (.ok o) t = (t.setWork o).finishWork := if_neg ho
      obtain ⟨-, -, -, -, -, hmax, -⟩ := (Params.wf_iff _).mp hp
      rw [hend, decompressedFun_of_fitting (Nat.not_lt.mp ho)]
      exact (h.setWork o).finishWork ((Nat.not_lt.mp ho).trans hmax)

end AtLaterStages

/-! ## The decompressor's answer (R178) -/

theorem step_dcmpAnswer_outstanding (hi : s.inputs = .dcmpAnswer :: rest) (ho : s.out = some (.dcmp d)) :
    step s = .next (decompressorAnswered (Config.decompress d) { s with inputs := rest }) := by
  rw [step_dcmpAnswer hi]
  exact answerDecompressor_next.mpr ⟨d, ho, rfl⟩

/-- A RESOLVE that waits for the decompressor is at its later stages, with the result discarded. -/
theorem Inv.dcmpWait_atLaterStages (h : s.Inv) (hp : s.phase = .dcmpWait) (rest : List Input) :
    AtLaterStages s s.wbuf rest { s with inputs := rest } := by
  have hno : s.status.resValid = false := by
    obtain ⟨hno, -⟩ : s.status.resValid = false ∧ _ := by simpa only [State.WaitOk, hp] using h.waiting
    exact hno
  exact ⟨{ Inv.accepted h (Inv.busy h (by rw [hp]; decide)) with }, rfl, ⟨rfl, h.noResult hno, hno⟩, rfl, rfl, rfl,
    ⟨rfl, rfl, rfl, rfl, rfl⟩, ⟨rfl, rfl, rfl⟩, ⟨rfl, rfl, rfl⟩⟩

/-- Settles O34: the answer decides the end, from the wait that the invariant describes. -/
theorem decompressorAnswerReported : Obligations.DecompressorAnswerReported := by
  intro s rest data hinv hi hp ho
  have hstep := step_dcmpAnswer_outstanding hi ho
  obtain ⟨-, hended⟩ := (Inv.dcmpWait_atLaterStages hinv hp rest).decompressorAnswered hinv.params (Config.decompress data)
  refine ⟨fun desc hdesc ha => ?failed, fun o ha hl => ?decompressed, fun o ha hl => ?excess⟩ <;> rw [ha] at hstep hended
  case failed =>
    rw [decompressedFun, descOn_of_lt hdesc] at hended
    obtain ⟨hfailed, hcleared⟩ := hended
    exact ⟨_, hstep, hfailed, hcleared.valid, hcleared.rlen⟩
  case decompressed =>
    rw [decompressedFun_of_fitting hl] at hended
    exact ⟨_, hstep, hended⟩
  case excess =>
    rw [decompressedFun_of_excess hl] at hended
    obtain ⟨hfailed, hcleared⟩ := hended
    exact ⟨_, hstep, hfailed, hcleared.valid, hcleared.rlen⟩

/-! ## The whole operation (R170) -/

/-- The later stages come to the end that `laterStagesFun` says, with at most the decompressor's answer. -/
theorem afterDecrypt_run (hp : s.par.wf = true) (hr : r.length ≤ 2 ^ 32 - 1) (rest : List Input) :
    ∃ answers ∈ [[], [Input.dcmpAnswer]], ∀ t, AtLaterStages s r (answers ++ rest) t →
      ∃ t', Host.Core.run core answers.length t.afterDecrypt = .next t' ∧ DecryptFrame rest s t' ∧
        DecryptEnded s t' (laterStagesFun s.par s.pkt.flags r) := by
  cases hc : isCompressed s.pkt.flags
  case true =>
    refine ⟨[], by simp, fun t h => ?_⟩
    rw [afterDecrypt_of_compressed (h.frame.packet.regs ▸ hc), laterStagesFun_of_compressed hc]
    exact ⟨_, rfl, h.raise _⟩
  cases hz : isSnappy s.pkt.flags
  case false =>
    refine ⟨[], by simp, fun t h => ?_⟩
    rw [afterDecrypt_of_plain (h.frame.packet.regs ▸ hc) (h.frame.packet.regs ▸ hz), laterStagesFun_of_plain hc hz]
    exact ⟨_, rfl, h.finishWork hr⟩
  have hsnappy : ∀ {t acts}, AtLaterStages s r acts t → t.afterDecrypt = t.snappyStage := fun h =>
    afterDecrypt_of_snappy (h.frame.packet.regs ▸ hc) (h.frame.packet.regs ▸ hz)
  by_cases hl : r.length < 10
  case pos =>
    refine ⟨[], by simp, fun t h => ?_⟩
    rw [hsnappy h, snappyStage_of_short (h.work ▸ hl), laterStagesFun_of_short hc hz hl]
    exact ⟨_, rfl, h.raise _⟩
  case neg =>
    have hl := Nat.not_lt.mp hl
    refine ⟨[.dcmpAnswer], by simp, fun t h => ?_⟩
    rw [hsnappy h, snappyStage_of_trailer (h.work ▸ hl), h.work, laterStagesFun_of_trailer hc hz hl]
    have hanswer := step_dcmpAnswer_outstanding (s := t.request (.dcmp (withoutTrailer r)) .dcmpWait) h.frame.inputs rfl
    exact ⟨_, run_one hanswer, (h.answering _ _ rest).decompressorAnswered hp _⟩

theorem step_resolve (hb : s.status.busy = false) :
    step { s with inputs := .write 0x00#8 [0x05#8] :: acts } = exec .resolve { s with inputs := acts } :=
  (step_command rfl).trans (runWord_resolve (s := { s with inputs := acts }) hb)

theorem cipherAnswered_of_resolve {u : Bytes} (ho : s.oper = some .resolve) (hu : unpad d = .ok u) :
    cipherAnswered d s = ((s.setWork d).setWork u).afterDecrypt := by
  simp [cipherAnswered, hu, State.resolving, ho]

/-- The decrypt stage comes to the end that `resolveFun` says: a failed precondition ends it at acceptance, otherwise the
cipher answers, and the later stages follow a plaintext. -/
theorem decryptStage_run (hinv : s.Inv) (hp : s.status.pktValid = true) (he : isEncrypted s.pkt.flags = true)
    (rest : List Input) :
    ∃ answers ∈ [[], [Input.ciphAnswer], [.ciphAnswer, .dcmpAnswer]], ∀ t, AtLaterStages s s.pbuf (answers ++ rest) t →
      t.oper = some .resolve →
      ∃ t', Host.Core.run core answers.length (t.startDecrypt s.key s.pkt.iv) = .next t' ∧ DecryptFrame rest s t' ∧
        DecryptEnded s t' (resolveFun s.par s.pkt.flags s.pkt.iv s.pbuf s.key) := by
  by_cases hk : s.key.length = 16
  case neg =>
    refine ⟨[], by simp, fun t h _ => ?_⟩
    rw [startDecrypt_of_key_length hk, resolveFun_of_error he (decryptFun_of_key_length hk)]
    exact ⟨_, rfl, h.raise _⟩
  by_cases hl : s.pbuf.length % 16 = 0
  case neg =>
    refine ⟨[], by simp, fun t h _ => ?_⟩
    rw [startDecrypt_of_partial_block hk (h.work ▸ hl), resolveFun_of_error he (decryptFun_of_partial_block hk hl)]
    exact ⟨_, rfl, h.raise _⟩
  have hfun := decryptFun_of_whole_blocks (iv := s.pkt.iv) hk hl
  have hanswer : ∀ {acts : List Input} {t : State}, AtLaterStages s s.pbuf (.ciphAnswer :: acts) t →
      step (t.startDecrypt s.key s.pkt.iv) = .next (cipherAnswered (Config.cbcDecrypt s.key s.pkt.iv s.pbuf)
        (t.answering (.ciph s.key s.pkt.iv s.pbuf) .ciphWait acts)) := by
    intro acts t h
    rw [startDecrypt_of_whole_blocks hk (h.work ▸ hl), h.work]
    exact step_ciphAnswer_outstanding h.frame.inputs rfl
  cases hu : unpad (Config.cbcDecrypt s.key s.pkt.iv s.pbuf) with
  | error e =>
    refine ⟨[.ciphAnswer], by simp, fun t h _ => ⟨_, run_one (hanswer h), ?_⟩⟩
    rw [cipherAnswered_of_error hu, resolveFun_of_error he (hfun.trans hu)]
    exact ((h.answering _ _ rest).setWork _).raise e
  | ok r =>
    have hr : r.length ≤ 2 ^ 32 - 1 :=
      (unpad_length hu).le.trans ((cbcDecrypt_length _ _ _).trans_le (Inv.pbuf_le hinv.toDataOk hp))
    obtain ⟨answers, hmem, hlater⟩ := afterDecrypt_run hinv.params hr rest
    refine ⟨.ciphAnswer :: answers, by simpa using hmem, fun t h ho => ?_⟩
    have hstep := hanswer (acts := answers ++ rest) h
    rw [cipherAnswered_of_resolve (s := t.answering _ _ _) ho hu] at hstep
    rw [List.length_cons, run_succ hstep, resolveFun_of_plaintext he (hfun.trans hu)]
    exact hlater _ (((h.answering _ _ _).setWork _).setWork r)

theorem resolve_run (hinv : s.Inv) (hb : s.status.busy = false) (hp : s.status.pktValid = true) (rest : List Input) :
    ∃ answers ∈ [[], [Input.ciphAnswer], [.dcmpAnswer], [.ciphAnswer, .dcmpAnswer]],
      ∃ t, Host.Core.run core (1 + answers.length) { s with inputs := .write 0x00#8 [0x05#8] :: (answers ++ rest) } = .next t ∧
        DecryptFrame rest s t ∧ DecryptEnded s t (resolveFun s.par s.pkt.flags s.pkt.iv s.pbuf s.key) := by
  cases he : isEncrypted s.pkt.flags
  case false =>
    obtain ⟨answers, hmem, hlater⟩ := afterDecrypt_run hinv.params (Inv.pbuf_le hinv.toDataOk hp) rest
    have hstep := (step_resolve hb).trans (exec_resolve_of_unencrypted (s := { s with inputs := answers ++ rest }) hb hp he)
    refine ⟨answers, by simp only [List.mem_cons, List.not_mem_nil, or_false] at hmem ⊢; tauto, ?_⟩
    rw [Nat.add_comm, run_succ hstep, resolveFun_of_unencrypted he]
    exact hlater _ (payloadCopied_atLaterStages s _)
  case true =>
    obtain ⟨answers, hmem, hdecrypt⟩ := decryptStage_run hinv hp he rest
    have hstep := (step_resolve hb).trans (exec_resolve_of_encrypted (s := { s with inputs := answers ++ rest }) hb hp he)
    refine ⟨answers, by simp only [List.mem_cons, List.not_mem_nil, or_false] at hmem ⊢; tauto, ?_⟩
    rw [Nat.add_comm, run_succ hstep]
    exact hdecrypt _ (payloadCopied_atLaterStages s _) rfl

/-- Settles O32: the run to the end, with its frame and its result read off. -/
theorem resolveRefinesPipeline : Obligations.ResolveRefinesPipeline := by
  intro s rest hinv hb hp
  obtain ⟨answers, hanswers, t, hrun, hframe, hended⟩ := resolve_run hinv hb hp rest
  refine ⟨answers, hanswers, t, hrun, hframe.inputs, hframe.stream, hframe.par, hframe.operands, hframe.header,
    hframe.packet, fun e he => ?error, fun u hu => ?result⟩
  case error => rwa [he] at hended
  case result => rwa [hu] at hended

/-! ## A Packet with Compressed set (R172, R174) -/

/-- No result is held, and no answer of the decompressor is awaited. -/
def State.NoOutput (t : State) : Prop :=
  t.status.resValid = false ∧ t.phase ≠ .dcmpWait

theorem State.noOutput_raise (hr : s.status.resValid = false) (e : Err) : (s.raise e).NoOutput :=
  ⟨hr, nofun⟩

theorem startDecrypt_noOutput (hr : s.status.resValid = false) (key iv : Bytes) : (s.startDecrypt key iv).NoOutput := by
  obtain ⟨-, hs⟩ | ⟨-, -, hs⟩ | ⟨-, -, hs⟩ := startDecrypt_cases s key iv <;> rw [hs]
  · exact State.noOutput_raise hr _
  · exact State.noOutput_raise hr _
  · exact ⟨hr, nofun⟩

/-- R174: whatever the cipher answers, a RESOLVE with Compressed set ends with an error. -/
theorem cipherAnswered_noOutput (ho : s.oper = some .resolve) (hc : isCompressed s.pkt.flags = true)
    (hr : s.status.resValid = false) (d : Bytes) : (cipherAnswered d s).NoOutput := by
  cases hu : unpad d with
  | error e =>
    rw [cipherAnswered_of_error hu]
    exact State.noOutput_raise (s := s.setWork d) hr e
  | ok u =>
    rw [cipherAnswered_of_resolve ho hu, afterDecrypt_of_compressed (s := (s.setWork d).setWork u) hc]
    exact State.noOutput_raise (s := (s.setWork d).setWork u) hr _

theorem exec_resolve_noOutput (hp : s.status.pktValid = true) (hc : isCompressed s.pkt.flags = true)
    (hx : exec .resolve s = .next t) : t.NoOutput := by
  obtain ⟨hb, -⟩ := command_next.mp hx
  cases he : isEncrypted s.pkt.flags
  case true =>
    obtain rfl := Host.Outcome.next.inj ((exec_resolve_of_encrypted hb hp he).symm.trans hx)
    exact startDecrypt_noOutput (s := s.payloadCopied) rfl _ _
  case false =>
    obtain rfl := Host.Outcome.next.inj ((exec_resolve_of_unencrypted hb hp he).symm.trans hx)
    rw [afterDecrypt_of_compressed (s := s.payloadCopied) hc]
    exact State.noOutput_raise (s := s.payloadCopied) rfl _

/-- R24, R174: a RESOLVE in progress with Compressed set waits for the cipher. -/
theorem Inv.compressed_waits_ciph (h : s.Inv) (ho : s.oper = some .resolve) (hc : isCompressed s.pkt.flags = true) :
    s.phase = .ciphWait ∧ s.status.resValid = false := by
  have hw := h.waiting
  unfold State.WaitOk at hw
  generalize hp : s.phase = ph at hw
  cases ph with
  | ciphWait => exact ⟨rfl, hw.1⟩
  | idle => simp [ho] at hw
  | hdrRead => simp [ho] at hw
  | payRead => simp [ho] at hw
  | dcmpWait => simp [hc] at hw

/-- R197, R239, R254: what a step can be while the cipher's answer is awaited. -/
theorem step_of_ciphWait (h : s.Inv) (hp : s.phase = .ciphWait) (hx : step s = .next t) :
    (t.status = s.status ∧ t.phase = s.phase) ∨ (∃ k u, t = State.applyReset k u) ∨
      ∃ d rest, t = cipherAnswered d { s with inputs := rest } := by
  have hb := Inv.busy h (by rw [hp]; decide)
  obtain ⟨key, iv, c, ho, -⟩ : ∃ key iv c, s.out = some (.ciph key iv c) ∧ c.length ≤ 2 ^ 32 - 1 := by
    simpa [hp] using out_phase h
  cases hi : s.inputs with
  | nil =>
    have hsame : step s = .next s := by simp [step, stepInput, State.fetch, State.issued, State.delivered, hi]
    obtain rfl := Host.Outcome.next.inj (hsame.symm.trans hx)
    exact .inl ⟨rfl, rfl⟩
  | cons i rest =>
    have hadmits : s.admits i = true := (stepsExactlyWhereAdmitted s i rest h hi).mpr ⟨t, hx⟩
    cases i with
    | read n =>
      rw [step_read hi] at hx
      obtain ⟨_, _, -, -, rfl⟩ := hostRead_next.mp hx
      exact .inl ⟨rfl, rfl⟩
    | reset k =>
      rw [step_without_word hi (by simp [State.fetch, State.issued, State.delivered, hi])] at hx
      cases hx
      exact .inr (.inl ⟨k, _, rfl⟩)
    | arrive b =>
      rw [step_without_word hi (by simp [State.fetch, State.issued, State.delivered, hi])] at hx
      cases hx
      exact .inl ⟨rfl, rfl⟩
    | ciphAnswer =>
      rw [step_ciphAnswer_outstanding hi ho] at hx
      cases hx
      exact .inr (.inr ⟨_, rest, rfl⟩)
    | write | inspectResolve | srcOk | srcFail | dcmpAnswer =>
      simp [State.admits, State.sourceReady, hb, ho, hp] at hadmits
    | memRead sp | memWrite sp => cases sp <;> simp [State.admits, hb] at hadmits

/-- Settles O33: acceptance ends in an error or waits for the cipher, and so does the wait that follows. -/
theorem compressedNeverYieldsResult : Obligations.CompressedNeverYieldsResult := by
  intro s t hinv hp hf hwhen hx
  have hc : isCompressed s.pkt.flags = true := bne_iff_ne.mpr hf
  obtain ho | ⟨hb, rest, hi⟩ := hwhen
  case inl =>
    obtain ⟨hphase, hr⟩ := Inv.compressed_waits_ciph hinv ho hc
    obtain ⟨hstatus, hsame⟩ | ⟨k, u, rfl⟩ | ⟨d, rest, rfl⟩ := step_of_ciphWait hinv hphase hx
    · exact ⟨hstatus ▸ hr, by simp [hsame, hphase]⟩
    · exact ⟨rfl, nofun⟩
    · exact cipherAnswered_noOutput (s := { s with inputs := rest }) ho hc hr d
  case inr =>
    have hexec : exec .resolve { s with inputs := rest } = .next t := by
      rw [← hx, step_command hi]
      exact (runWord_resolve (s := { s with inputs := rest }) hb).symm
    exact exec_resolve_noOutput (s := { s with inputs := rest }) hp hc hexec

end Sys2Proof.Machine
end

section
/-! SUPPORT. Host access to registers and buffers, value by value and byte by byte (R190, R191), the fetched instruction
(R192), unsolicited answers (R197), and the end of a run (R199). -/

open Sys2Proof

namespace Sys2Proof.Machine

variable {s t : State} {rest : List Input}

/-! ## Register reads (R191) -/

/-- R37, R38: the readable registers, each with the value of its field. -/
def State.fieldValues (s : State) : List (Reg × Value) :=
  [(.status, .num s.status.word.toNat), (.errKind, .num s.errKind.toNat), (.errReason, .num s.errReason.toNat),
    (.errInfo, .num s.errInfo), (.klen, .num s.klen.toNat), (.opiv, .bytes s.opiv), (.ilen, .num s.ilen.toNat),
    (.ibuf, .bytes s.ibuf), (.hfMagic, .bytes s.hfMagic), (.hfPver, .num s.hf.pver.toNat), (.hfDevid, .bytes s.hf.devid),
    (.hfFlags, .num s.hf.flags.toNat), (.hfIv, .bytes s.hf.iv), (.hfPlver, .num s.hf.plver.toNat),
    (.hfPlen, .num s.hf.plen.toNat), (.pktPver, .num s.pkt.pver.toNat), (.pktPlver, .num s.pkt.plver.toNat),
    (.pktDevid, .bytes s.pkt.devid), (.pktFlags, .num s.pkt.flags.toNat), (.pktIv, .bytes s.pkt.iv),
    (.pktPlen, .num s.pkt.plen.toNat), (.pbuf, .bytes s.pbuf), (.rlen, .num s.rlen.toNat), (.rbuf, .bytes s.rbuf)]

theorem regValue_of_mem_fieldValues {r : Reg} {v : Value} (hv : (r, v) ∈ s.fieldValues) (hr : s.mayRead r = true) :
    s.regValue r = .ok v := by
  cases r <;> simp_all [State.fieldValues, State.mayRead, State.regValue, whenValid]

theorem regValue_of_unreadable {r : Reg} (hr : s.mayRead r = false) : ∃ e, s.regValue r = .error e := by
  cases hv : s.regValue r with
  | error e => exact ⟨e, rfl⟩
  | ok v => simp [(regValue_ok r).mp ⟨v, hv⟩] at hr

theorem hostRead_of_error {r : Reg} {e : Refusal} (hv : s.readReg r = .error e) : hostRead r.number s = .refused e := by
  simp [hostRead, Reg.ofNumber_number, hv]

/-- Settles O51: the register's number names it, and in IDLE its read is its field where admitted. -/
theorem hostReadsAsAdmitted : Obligations.HostReadsAsAdmitted := by
  intro s r rest hb hi
  rw [step_read hi]
  have hread : State.readReg { s with inputs := rest } r = s.regValue r := readReg_of_idle hb r
  refine ⟨fun v hv hr => ?admitted, fun hr => ?refused⟩
  case admitted =>
    exact hostRead_next.mpr ⟨r, v, Reg.ofNumber_number r, hread.trans (regValue_of_mem_fieldValues hv hr), rfl⟩
  case refused =>
    obtain ⟨e, he⟩ := regValue_of_unreadable hr
    exact ⟨e, hostRead_of_error (hread.trans he)⟩

/-! ## Register writes (R190) -/

/-- Settles O52: the three writes that have a step, and the capacities fit the length registers. -/
theorem hostWritesOperands : Obligations.HostWritesOperands := by
  intro s v rest hb hp
  obtain ⟨-, -, -, hoperand, -, -, -, hkey⟩ := (Params.wf_iff _).mp hp
  refine ⟨fun hi hv => ?key, fun hi hv => ?opiv, fun hi hv => ?ibuf⟩ <;> rw [step_write hi (by simp)]
  case key =>
    have hlen : (BitVec.ofNat 8 v.length).toNat = v.length := by rw [BitVec.toNat_ofNat]; omega
    exact ⟨_, hostWrite_next.mpr ⟨hb, .inl ⟨rfl, hv, rfl⟩⟩, rfl, hlen, rfl⟩
  case opiv => exact hostWrite_next.mpr ⟨hb, .inr (.inl ⟨rfl, hv, rfl⟩)⟩
  case ibuf => exact ⟨_, hostWrite_next.mpr ⟨hb, .inr (.inr ⟨rfl, hv, rfl⟩)⟩, rfl, toNat_ofNat32 (by omega), rfl⟩

/-! ## Piecewise access (R42) -/

theorem peek_of_spaceBytes {sp : Space} {b : Bytes} (h : s.spaceBytes sp = .ok b) (a : Nat) : s.peek sp a = b[a]? := by
  simp [State.peek, h]

theorem length_slice {b : Bytes} {a n : Nat} (h : a + n ≤ b.length) : (slice b a (a + n)).length = n := by
  simp [slice]
  omega

theorem getElem?_slice {b : Bytes} {a n j : Nat} (hj : j < n) : (slice b a (a + n))[j]? = b[a + j]? := by
  simp [slice, hj]

/-- R190: a piecewise write of IBUF has its step, and the bytes of IBUF then read as overwritten. -/
theorem step_memWrite_peek (h : s.Inv) (hb : s.status.busy = false) {a : Nat} {v : Bytes}
    (hi : s.inputs = .memWrite .ibuf a v :: rest) (hv : a + v.length ≤ s.ilen.toNat) :
    step s = .next (State.patchIbuf a v { s with inputs := rest }) ∧
      ∀ j, (State.patchIbuf a v { s with inputs := rest }).peek .ibuf j = (overwrite s.ibuf a v)[j]? := by
  have hstep : step s = .next (State.patchIbuf a v { s with inputs := rest }) :=
    (step_memWrite hi).trans (hostMemWrite_next.mpr ⟨hb, rfl, hv, rfl⟩)
  exact ⟨hstep, peek_of_spaceBytes (spaceBytes_ibuf (stepKeepsInvariant s _ h hstep))⟩

/-- R191: an admitted piecewise read returns the bytes of its space at the indexes asked for. -/
theorem step_memRead_peek (h : s.Inv) {sp : Space} {a n : Nat} (hi : s.inputs = .memRead sp a n :: rest)
    (hadmits : s.admits (.memRead sp a n) = true) :
    ∃ b : Bytes, b.length = n ∧ (∀ j, j < n → b[j]? = s.peek sp (a + j)) ∧
      step s = .next { s with inputs := rest, obs := .memRead sp a n b :: s.obs } := by
  obtain ⟨t, ht⟩ := (hostMemRead_steps h sp a n).mpr hadmits
  obtain ⟨hb, b, hbytes, hl, -⟩ := hostMemRead_next.mp ht
  refine ⟨slice b a (a + n), length_slice hl, fun j hj => ?_, ?_⟩
  · rw [getElem?_slice hj, peek_of_spaceBytes hbytes]
  · exact (step_memRead hi).trans (hostMemRead_next.mpr ⟨hb, b, hbytes, hl, rfl⟩)

/-- Settles O53: a readable space is its whole buffer, and a write of IBUF overwrites the bytes it names. -/
theorem piecewiseAccessByByte : Obligations.PiecewiseAccessByByte := by
  intro s rest h hb
  have hibuf := peek_of_spaceBytes (spaceBytes_ibuf h)
  refine ⟨hibuf, fun hp => peek_of_spaceBytes (spaceBytes_pbuf h hp), fun hr => peek_of_spaceBytes (spaceBytes_rbuf h hr),
    fun a v hi hv => ?write, fun sp a n hi hadmits => step_memRead_peek h hi hadmits⟩
  obtain ⟨hstep, hpeek⟩ := step_memWrite_peek h hb hi hv
  rw [h.ibufLength] at hv
  refine ⟨_, hstep, rfl, fun j hj => ?inside, fun j hj => ?outside, rfl⟩
  case inside => rw [hpeek, overwrite_inside _ _ _ _ hv hj]
  case outside => rw [hpeek, hibuf, overwrite_outside _ _ _ _ hv hj]

/-! ## The fetched instruction (R192) -/

/-- Settles O8: each of the three fetched words decodes to the instruction that runs. -/
theorem stepRunsDecodedInstruction : Obligations.StepRunsDecodedInstruction := by
  refine ⟨?command, ?secondLevel, ?header⟩
  case command =>
    intro s c rest i hi hc hdecode
    have hword : s.commandWord c = .cmd c := if_neg hc
    rw [step_command hi, hword, runWord_of_ok hdecode]
  case secondLevel =>
    intro s rest i hi hp hdecode
    have hword : s.commandWord 0x05#8 = .flags s.pkt.flags := if_pos ⟨rfl, hp⟩
    rw [step_command hi, hword, runWord_of_ok hdecode]
  case header =>
    intro s rest i hi hp ho hl hdecode
    rw [step_srcOk_hdr hi hp ho hl, runWord_of_ok hdecode]

/-! ## Unsolicited answers (R197) -/

theorem answerCipher_of_unsolicited (ho : ∀ key iv c, s.out ≠ some (.ciph key iv c)) :
    answerCipher s = .refused .unsolicited := by
  unfold answerCipher
  split
  case h_1 hout => exact absurd hout (ho _ _ _)
  all_goals rfl

theorem answerDecompressor_of_unsolicited (ho : ∀ d, s.out ≠ some (.dcmp d)) :
    answerDecompressor s = .refused .unsolicited := by
  unfold answerDecompressor
  split
  case h_1 hout => exact absurd hout (ho _)
  all_goals rfl

theorem answerSourceOk_of_unsolicited (ho : ∀ n, s.out ≠ some (.src n)) : answerSourceOk s = .refused .unsolicited := by
  unfold answerSourceOk
  split
  case h_1 hout => exact absurd hout (ho _)
  all_goals rfl

theorem answerSourceFail_of_unsolicited (ho : ∀ n, s.out ≠ some (.src n)) (d k : Nat) :
    answerSourceFail d k s = .refused .unsolicited := by
  unfold answerSourceFail
  split
  case h_1 hout => exact absurd hout (ho _)
  all_goals rfl

/-- R24, R33: the phase says on which port a request may be outstanding. -/
theorem Inv.phase_of_src (h : s.Inv) {n : Nat} (ho : s.out = some (.src n)) : s.phase = .hdrRead ∨ s.phase = .payRead := by
  have hp : (s.phase = .hdrRead ∧ n = 40) ∨ s.phase = .payRead := by simpa [ho] using out_phase h
  exact hp.imp_left And.left

theorem Inv.phase_of_ciph (h : s.Inv) {key iv c : Bytes} (ho : s.out = some (.ciph key iv c)) : s.phase = .ciphWait := by
  have hp : s.phase = .ciphWait ∧ c.length ≤ 2 ^ 32 - 1 := by simpa [ho] using out_phase h
  exact hp.1

theorem Inv.phase_of_dcmp (h : s.Inv) {d : Bytes} (ho : s.out = some (.dcmp d)) : s.phase = .dcmpWait := by
  simpa [ho] using out_phase h

/-- Settles O54: the phase of the outstanding request is the phase in which its answer is awaited. -/
theorem unsolicitedAnswersHaveNoStep : Obligations.UnsolicitedAnswersHaveNoStep := by
  intro s rest h
  have hsrc : s.phase ≠ .hdrRead → s.phase ≠ .payRead → ∀ n, s.out ≠ some (.src n) :=
    fun hhdr hpay n ho => (Inv.phase_of_src h ho).elim hhdr hpay
  refine ⟨fun hi hp => ?cipher, fun hi hp => ?decompressor, fun hi hhdr hpay => ?sourceOk, fun d k hi hhdr hpay => ?sourceFail⟩
  case cipher =>
    rw [step_ciphAnswer hi]
    exact answerCipher_of_unsolicited fun _ _ _ ho => hp (Inv.phase_of_ciph h ho)
  case decompressor =>
    rw [step_dcmpAnswer hi]
    exact answerDecompressor_of_unsolicited fun _ ho => hp (Inv.phase_of_dcmp h ho)
  case sourceOk =>
    rw [step_srcOk_noHeader hi hhdr]
    exact answerSourceOk_of_unsolicited (hsrc hhdr hpay)
  case sourceFail =>
    rw [step_srcFail hi]
    exact answerSourceFail_of_unsolicited (s := { s with inputs := rest }) (hsrc hhdr hpay) d k

/-! ## The end of a run (R199, R231) -/

theorem step_of_no_inputs (hi : s.inputs = []) : step s = .next s := by
  simp [step, stepInput, State.fetch, State.issued, State.delivered, hi]

theorem run_of_no_inputs (hi : s.inputs = []) (k : Nat) : Host.Core.run core k s = .next s := by
  induction k with
  | zero => rfl
  | succ k ih => exact (run_succ (step_of_no_inputs hi) k).trans ih

/-- Under the invariant an idle phase is all that BUSY and OUT say of the end of a run. -/
theorem Inv.runEnded_iff (h : s.Inv) : s.runEnded = true ↔ s.inputs = [] ∧ s.phase = .idle := by
  rw [State.runEnded_iff]
  refine and_congr_right fun _ => ⟨fun ⟨hb, _⟩ => Inv.idle h hb, fun hp => ⟨?busy, ?out⟩⟩
  case busy => simpa [hp] using h.busyPhase
  case out => simpa [hp] using out_phase h

/-- Settles O58: a run in a busy state with nothing queued stays in that state, which is no end. -/
theorem runEndsOnlyWhenIdle : Obligations.RunEndsOnlyWhenIdle := by
  intro s h
  refine ⟨Inv.runEnded_iff h, fun he => ⟨_, if_pos he, rfl⟩, fun hi hb k t hrun => ?_⟩
  obtain rfl := Host.Outcome.next.inj ((run_of_no_inputs hi k).symm.trans hrun)
  have hrunning := State.runEnded_of_busy hb
  exact ⟨hrunning, State.runResult_of_running hrunning⟩

end Sys2Proof.Machine
end

section
/-! SUPPORT. What the source is asked for (R64, R130, R199). -/

open Sys2Proof

namespace Sys2Proof.Machine

variable {s t : State}

/-! ## Off the source (R24): no `SrcRead` is awaited -/

/-- R24: the block does not wait for the source. -/
def State.OffSource (s : State) : Prop := s.phase ≠ .hdrRead ∧ s.phase ≠ .payRead

theorem offSource_of_idle (hp : s.phase = .idle) : s.OffSource := by simp [State.OffSource, hp]

theorem startDecrypt_offSource (s : State) (key iv : Bytes) : (s.startDecrypt key iv).OffSource := by
  obtain hp | hp := startDecrypt_phase s key iv <;> simp [State.OffSource, hp]

theorem snappyStage_offSource (s : State) : s.snappyStage.OffSource := by
  obtain hp | hp := snappyStage_phase s <;> simp [State.OffSource, hp]

theorem afterDecrypt_offSource (s : State) : s.afterDecrypt.OffSource := by
  obtain hp | hp := afterDecrypt_phase s <;> simp [State.OffSource, hp]

theorem parseBody_phase (s : State) : s.parseBody.phase = .idle := by
  unfold State.parseBody
  split
  · rfl
  · split <;> rfl

theorem unpadBody_phase (s : State) : s.unpadBody.phase = .idle := by
  unfold State.unpadBody
  split <;> rfl

theorem resolveBody_offSource (s : State) : s.resolveBody.OffSource := by
  unfold State.resolveBody
  split
  · split
    · exact startDecrypt_offSource _ _ _
    · exact afterDecrypt_offSource _
  · exact offSource_of_idle rfl

theorem command_offSource {o : Option Oper} {body : State → State} (hbody : ∀ u, (body u).OffSource)
    (hx : s.command o body = .next t) : t.OffSource := by
  obtain ⟨-, rfl⟩ := command_next.mp hx
  exact hbody _

theorem secondLevel_offSource {k : BitVec 3} {stages : State → State} (hstages : ∀ u, (stages u).OffSource)
    (hx : s.secondLevel k stages = .next t) : t.OffSource := by
  obtain ⟨-, ⟨-, -, rfl⟩ | ⟨-, rfl⟩⟩ := secondLevel_next.mp hx
  · exact hstages _
  · exact offSource_of_idle rfl

theorem cipherAnswered_offSource (s : State) (d : Bytes) : (cipherAnswered d s).OffSource := by
  unfold cipherAnswered
  split
  · exact offSource_of_idle rfl
  · split
    · exact afterDecrypt_offSource _
    · exact offSource_of_idle rfl

theorem decompressorAnswered_phase (s : State) (a : DcmpAnswer) : (decompressorAnswered a s).phase = .idle := by
  unfold decompressorAnswered
  split
  · rfl
  · split <;> rfl

theorem sourceFailed_phase (s : State) (d : Nat) : (sourceFailed d s).phase = .idle := by
  unfold sourceFailed
  split <;> rfl

/-! ## What a step asks of the source -/

/-- R130, R239: what a transition can be for the source. -/
inductive SourceAsked (s t : State) : Prop where
  /-- A DECODE is accepted. -/
  | header (hs : s.phase = .idle) (ht : t.phase = .hdrRead) (hbytes : t.bytesAsked = s.bytesAsked + 40)
  /-- Its header is accepted. -/
  | payload (hs : s.phase = .hdrRead) (ht : t.phase = .payRead)
      (hbytes : t.bytesAsked = s.bytesAsked + (headerFields t.hbuf).plen.toNat)
  /-- The operation waits on, or none is in progress. -/
  | stays (hphase : t.phase = s.phase) (hbytes : t.bytesAsked = s.bytesAsked)
  /-- The block comes to wait for another collaborator, or for the host. -/
  | leaves (ht : t.OffSource)

theorem frameHeader_sourceAsked {f : Header} (hf : f.wf = true) (hp : s.phase = .hdrRead) :
    SourceAsked s ((s.setHeaderBuffer (encodeHeader f)).frameHeader f) := by
  unfold State.frameHeader
  split
  case isTrue => exact .leaves (offSource_of_idle rfl)
  case isFalse =>
    split
    case isTrue => exact .leaves (offSource_of_idle rfl)
    case isFalse =>
      refine .payload hp rfl ?_
      rw [State.bytesAsked_request, State.request_hbuf, State.setHeaderBuffer_hbuf, headerFields_encodeHeader f hf]
      rfl

theorem exec_sourceAsked {i : Instr} (h : s.Inv) (hi : ∀ f, i = .informHeader f → f.wf = true) (hx : exec i s = .next t) :
    SourceAsked s t := by
  cases i
  case decode =>
    obtain ⟨hb, rfl⟩ := command_next.mp hx
    exact .header (Inv.idle h hb) rfl (State.bytesAsked_request _ _)
  case informHeader f =>
    obtain ⟨hw, rfl⟩ := execInformHeader_next.mp hx
    exact frameHeader_sourceAsked (hi f rfl) (awaitsHeader_iff.mp hw).1
  case parse => exact .leaves (command_offSource (fun u => offSource_of_idle (parseBody_phase u)) hx)
  case decrypt => exact .leaves (command_offSource (fun _ => startDecrypt_offSource _ _ _) hx)
  case unpad => exact .leaves (command_offSource (fun u => offSource_of_idle (unpadBody_phase u)) hx)
  case resolve => exact .leaves (command_offSource resolveBody_offSource hx)
  case illegalOp0 | illegalOp6 | illegalOp7 => exact .leaves (command_offSource (fun _ => offSource_of_idle rfl) hx)
  case resolveF0 | resolveF2 | resolveF6 => exact .leaves (secondLevel_offSource (fun _ => offSource_of_idle rfl) hx)
  case resolveF4 => exact .leaves (secondLevel_offSource snappyStage_offSource hx)
  case resolveF1 | resolveF3 | resolveF5 | resolveF7 =>
    exact .leaves (secondLevel_offSource (fun _ => startDecrypt_offSource _ _ _) hx)

theorem reject_phase {w : CodeWord} (hx : reject w s = .next t) : t.phase = .idle := by
  cases w with
  | cmd | flags =>
    obtain ⟨-, rfl⟩ := command_next.mp hx
    rfl
  | header b =>
    obtain ⟨-, rfl⟩ := rejectHeader_next.mp hx
    rfl

theorem runWord_sourceAsked {w : CodeWord} (h : s.Inv) (hx : runWord w s = .next t) : SourceAsked s t := by
  cases hd : decode w with
  | ok i =>
    rw [runWord_of_ok hd] at hx
    exact exec_sourceAsked h (fun f hf => decode_informHeader_wf (hf ▸ hd)) hx
  | error e =>
    rw [runWord_of_error hd] at hx
    exact .leaves (offSource_of_idle (reject_phase hx))

theorem runInput_sourceAsked {i : Input} (hx : runInput i s = .next t) : SourceAsked s t := by
  cases i with
  | write n v => obtain ⟨-, ⟨-, -, rfl⟩ | ⟨-, -, rfl⟩ | ⟨-, -, rfl⟩⟩ := hostWrite_next.mp hx <;> exact .stays rfl rfl
  | read n =>
    obtain ⟨r, v, -, -, rfl⟩ := hostRead_next.mp hx
    exact .stays rfl (State.bytesAsked_of_observed (o := .read n v) rfl)
  | memRead sp a n =>
    obtain ⟨-, b, -, -, rfl⟩ := hostMemRead_next.mp hx
    exact .stays rfl (State.bytesAsked_of_observed (o := .memRead sp a n _) rfl)
  | memWrite sp a v =>
    obtain ⟨-, -, -, rfl⟩ := hostMemWrite_next.mp hx
    exact .stays rfl rfl
  | inspectResolve =>
    obtain ⟨-, rfl⟩ := inspectIdle_next.mp hx
    exact .stays rfl rfl
  | reset k =>
    cases hx
    exact .leaves (offSource_of_idle rfl)
  | arrive b =>
    cases hx
    exact .stays rfl rfl
  | srcOk =>
    obtain ⟨n, -, -, -, rfl⟩ := answerSourceOk_next.mp hx
    exact .leaves (offSource_of_idle rfl)
  | srcFail d k =>
    obtain ⟨n, -, rfl⟩ := answerSourceFail_next.mp hx
    exact .leaves (offSource_of_idle (sourceFailed_phase _ d))
  | ciphAnswer =>
    obtain ⟨key, iv, c, -, rfl⟩ := answerCipher_next.mp hx
    exact .leaves (cipherAnswered_offSource s _)
  | dcmpAnswer =>
    obtain ⟨d, -, rfl⟩ := answerDecompressor_next.mp hx
    exact .leaves (offSource_of_idle (decompressorAnswered_phase s _))

/-- What is not state of the block (R40) counts here by its record alone. -/
theorem SourceAsked.of_same {u : State} (hphase : u.phase = s.phase) (hobs : u.obs = s.obs) (h : SourceAsked u t) :
    SourceAsked s t := by
  have hbytes := State.bytesAsked_of_obs hobs
  cases h with
  | header hs ht h => exact .header (hphase ▸ hs) ht (hbytes ▸ h)
  | payload hs ht h => exact .payload (hphase ▸ hs) ht (hbytes ▸ h)
  | stays ht h => exact .stays (ht.trans hphase) (h.trans hbytes)
  | leaves ht => exact .leaves ht

theorem step_sourceAsked (h : s.Inv) (hx : step s = .next t) : SourceAsked s t := by
  obtain ⟨-, rfl⟩ | ⟨w, -, hw⟩ | ⟨i, rest, -, -, hi⟩ := step_cases hx
  · exact .stays rfl rfl
  · exact (runWord_sourceAsked (pastWord_inv h) hw).of_same (pastWord_phase s) (ObservesAtMostOne.pastWord_obs s)
  · exact SourceAsked.of_same (u := { s with inputs := rest }) rfl rfl (runInput_sourceAsked hi)

/-- R33: a step asks the source for bytes only by a request that is then outstanding, so never off the source. -/
theorem bytesAsked_of_offSource (hobs : ObservesAtMostOne s t) (h : t.Inv) (hoff : t.OffSource) :
    t.bytesAsked = s.bytesAsked := by
  obtain hsame | ⟨o, ho, hout⟩ := hobs
  case inl => exact State.bytesAsked_of_obs hsame
  case inr =>
    have hnone : o.bytesAsked = 0 := by
      match o, hout with
      | .request (.src n), hout => exact ((Inv.phase_of_src h (hout _ rfl)).elim hoff.1 hoff.2).elim
      | .request (.ciph _ _ _), _ | .request (.dcmp _), _ | .read _ _, _ | .memRead _ _ _ _, _ => rfl
    rw [State.bytesAsked_of_observed ho, hnone, Nat.add_zero]

/-- Settles O59: only an accepted DECODE and an accepted header come to wait for the source. -/
theorem sourceAskedOnlyByDecode : Obligations.SourceAskedOnlyByDecode := by
  intro s t h hx
  cases step_sourceAsked h hx with
  | header hs ht hbytes => simp [hs, ht, hbytes]
  | payload hs ht hbytes => simp [hs, ht, hbytes]
  | stays ht hbytes =>
    rw [ht, hbytes]
    cases s.phase <;> simp
  | leaves hoff =>
    have hbytes := bytesAsked_of_offSource (ObservesAtMostOne.step hx) (stepKeepsInvariant s t h hx) hoff
    simp [hbytes, hoff.1, hoff.2]

end Sys2Proof.Machine
end

section
/-! SUPPORT. What a step is while BUSY = 1 (R231, R239, R254), and what the awaited answer makes of the operation
(R219). -/

open Sys2Proof

namespace Sys2Proof.Machine

variable {s t u : State} {rest : List Input}

/-! ## The error codes, and a block with nothing queued -/

/-- Settles O49: each outcome's three codes by evaluation. -/
theorem errorCodesAsTabled : Obligations.ErrorCodesAsTabled := fun _ => rfl

/-- Settles O45: a run with nothing queued stays in its state. -/
theorem nothingHappensUnasked : Obligations.NothingHappensUnasked := fun _ k hi => run_of_no_inputs hi k

/-! ## The awaited answer (R219, R231) -/

/-- R231, R239: the awaited answer, with `rest` queued behind it, has brought the operation from `s` to `t`. -/
inductive Answered (rest : List Input) (s t : State) : Prop where
  /-- The operation makes the second of its two requests. -/
  | asks (hinputs : t.inputs = rest) (herr : t.status.err = false)
      (hphase : s.phase = .hdrRead ∧ t.phase = .payRead ∨ s.phase = .ciphWait ∧ t.phase = .dcmpWait)
  /-- The operation ends with success. -/
  | succeeds (hinputs : t.inputs = rest) (ht : t.Succeeded)
  /-- R219: the operation ends with an error, and the output groups stay as the wait has found them. -/
  | fails {e : Err} (hinputs : t.inputs = rest) (ht : t.Failed e) (hpacket : SamePacket s t) (hresult : SameResult s t)

/-- The awaited answer has been taken from `s`, and the operation runs on in `u`: no output group is touched yet. -/
structure Resumed (rest : List Input) (s u : State) : Prop where
  accepted : u.Accepted
  inputs : u.inputs = rest
  packet : SamePacket s u
  result : SameResult s u

theorem Inv.resumed (h : s.Inv) (hb : s.status.busy = true) (rest : List Input) (st : Bytes) :
    Resumed rest s { s with inputs := rest, stream := st } :=
  ⟨{ Inv.accepted h hb with }, rfl, ⟨rfl, rfl, rfl⟩, ⟨rfl, rfl, rfl⟩⟩

namespace Resumed

theorem setWork (r : Resumed rest s u) (b : Bytes) : Resumed rest s (u.setWork b) :=
  ⟨{ r.accepted with }, r.inputs, { r.packet with }, { r.result with }⟩

theorem setHeaderBuffer (r : Resumed rest s u) (b : Bytes) : Resumed rest s (u.setHeaderBuffer b) :=
  ⟨{ r.accepted with }, r.inputs, { r.packet with }, { r.result with }⟩

theorem raise (r : Resumed rest s u) (e : Err) : Answered rest s (u.raise e) :=
  .fails r.inputs (State.raise_failed e u) { r.packet with } { r.result with }

theorem finishWork (r : Resumed rest s u) : Answered rest s u.finishWork :=
  have a : u.commitResult.Accepted := { r.accepted with }
  .succeeds r.inputs a.complete_succeeded

theorem payloadArrived (r : Resumed rest s u) (p : Bytes) : Answered rest s (payloadArrived p u) :=
  have a : (u.commitPacket (headerFields u.hbuf) p).Accepted := { r.accepted with }
  .succeeds r.inputs a.complete_succeeded

theorem sourceFailed (r : Resumed rest s u) (d : Nat) : Answered rest s (sourceFailed d u) := by
  unfold Machine.sourceFailed
  split <;> exact r.raise _

theorem frameHeader (r : Resumed rest s u) (hp : s.phase = .hdrRead) (f : Header) : Answered rest s (u.frameHeader f) := by
  unfold State.frameHeader
  split
  case isTrue => exact r.raise _
  case isFalse =>
    split
    case isTrue => exact r.raise _
    case isFalse => exact .asks r.inputs r.accepted.err (.inl ⟨hp, rfl⟩)

theorem afterDecrypt (r : Resumed rest s u) (hp : s.phase = .ciphWait) : Answered rest s u.afterDecrypt := by
  obtain ⟨-, hu⟩ | ⟨-, -, hu⟩ | ⟨-, -, hu⟩ := afterDecrypt_cases u <;> rw [hu]
  · exact r.raise _
  · obtain ⟨-, hu⟩ | ⟨-, hu⟩ := snappyStage_cases u <;> rw [hu]
    · exact r.raise _
    · exact .asks r.inputs r.accepted.err (.inr ⟨hp, rfl⟩)
  · exact r.finishWork

theorem cipherAnswered (r : Resumed rest s u) (hp : s.phase = .ciphWait) (d : Bytes) :
    Answered rest s (cipherAnswered d u) := by
  unfold Machine.cipherAnswered
  split
  · exact (r.setWork d).raise _
  · split
    · exact ((r.setWork d).setWork _).afterDecrypt hp
    · exact ((r.setWork d).setWork _).finishWork

theorem decompressorAnswered (r : Resumed rest s u) (a : DcmpAnswer) : Answered rest s (decompressorAnswered a u) := by
  unfold Machine.decompressorAnswered
  split
  · exact r.raise _
  · split
    · exact r.raise _
    · exact (r.setWork _).finishWork

end Resumed

theorem sourceReady_iff : s.sourceReady = true ↔ ∃ n, s.out = some (.src n) ∧ n ≤ s.stream.length := by
  unfold State.sourceReady
  split
  case h_1 n ho => simp [ho]
  case h_2 ho => exact iff_of_false nofun fun ⟨n, hn, _⟩ => ho n hn

/-- R24, R33: in HDR_READ and PAY_READ a `SrcRead` is outstanding. -/
theorem Inv.src_of_phase (h : s.Inv) (hp : s.phase = .hdrRead ∨ s.phase = .payRead) : ∃ n, s.out = some (.src n) := by
  obtain hp | hp := hp
  · exact ⟨40, by simpa [hp] using out_phase h⟩
  · simpa [hp] using out_phase h

/-- R130 steps 2 to 4: 40 bytes, with the magic or without it, answer the wait for the header. -/
theorem step_hdrRead_answered (h : s.Inv) (hi : s.inputs = .srcOk :: rest) (hp : s.phase = .hdrRead)
    (ho : s.out = some (.src 40)) (hl : 40 ≤ s.stream.length) : ∃ t, step s = .next t ∧ Answered rest s t := by
  have r := Inv.resumed h (Inv.busy h (by rw [hp]; decide)) rest (s.stream.drop 40)
  cases hf : parseHeader (s.stream.take 40) with
  | none =>
    have hrun := runWord_of_wrong_magic (s := s.pastAnswer rest 40) (List.length_take_of_le hl)
      (parseHeader_eq_none.mp hf) (awaitsHeader_iff.mpr ⟨hp, ho⟩)
    exact ⟨_, (step_srcOk_hdr hi hp ho hl).trans hrun, (r.setHeaderBuffer _).raise _⟩
  | some f => exact ⟨_, step_header_word hi hp ho hl hf, (r.setHeaderBuffer _).frameHeader hp f⟩

/-- The answer a busy block awaits has a step, which brings the operation on. -/
theorem step_answered {i : Input} (h : s.Inv) (hb : s.status.busy = true) (hi : s.inputs = i :: rest)
    (hw : s.awaits i = true) : ∃ t, step s = .next t ∧ Answered rest s t := by
  have r := Inv.resumed h hb rest
  have hout := out_phase h
  cases i with
  | srcOk =>
    obtain ⟨n, ho, hl⟩ := sourceReady_iff.mp hw
    have hp : (s.phase = .hdrRead ∧ n = 40) ∨ s.phase = .payRead := by simpa [ho] using hout
    obtain ⟨hp, rfl⟩ | hp := hp
    · exact step_hdrRead_answered h hi hp ho hl
    · exact ⟨_, step_srcOk_pay hi hp ho hl, (r _).payloadArrived _⟩
  | srcFail d k =>
    have hp : s.phase = .hdrRead ∨ s.phase = .payRead := by simpa [State.awaits] using hw
    obtain ⟨n, ho⟩ := Inv.src_of_phase h hp
    exact ⟨_, step_srcFail_outstanding hi ho, (r _).sourceFailed d⟩
  | ciphAnswer =>
    have hp : s.phase = .ciphWait := by simpa [State.awaits] using hw
    obtain ⟨key, iv, c, ho, -⟩ : ∃ key iv c, s.out = some (.ciph key iv c) ∧ c.length ≤ 2 ^ 32 - 1 := by
      simpa [hp] using hout
    exact ⟨_, step_ciphAnswer_outstanding hi ho, (r s.stream).cipherAnswered hp _⟩
  | dcmpAnswer =>
    have hp : s.phase = .dcmpWait := by simpa [State.awaits] using hw
    obtain ⟨d, ho⟩ : ∃ d, s.out = some (.dcmp d) := by simpa [hp] using hout
    exact ⟨_, step_dcmpAnswer_outstanding hi ho, (r s.stream).decompressorAnswered _⟩
  | write | read | memRead | memWrite | inspectResolve | reset | arrive => cases hw

theorem Phase.answersLeft_pos {p : Phase} (hp : p ≠ .idle) : 0 < p.answersLeft := by
  cases p with
  | idle => exact absurd rfl hp
  | hdrRead | payRead | ciphWait | dcmpWait => decide

/-- Settles O44: an awaited answer ends the operation, or leads to the second wait, which needs one answer fewer. -/
theorem everyAnswerBringsCompletionNearer : Obligations.EveryAnswerBringsCompletionNearer := by
  intro s i rest h hb hi hw
  obtain ⟨t, hstep, ha⟩ := step_answered h hb hi hw
  have hwaits : 0 < s.phase.answersLeft := Phase.answersLeft_pos (h.busyPhase.mp hb)
  refine ⟨t, hstep, ?_⟩
  cases ha with
  | asks hinputs _ hphase => obtain ⟨hs, ht⟩ | ⟨hs, ht⟩ := hphase <;> simp [hinputs, hs, ht, Phase.answersLeft]
  | succeeds hinputs ht => exact ⟨hinputs, ht.phase ▸ hwaits, fun _ => ⟨ht.busy, ht.done⟩⟩
  | fails hinputs ht => exact ⟨hinputs, ht.phase ▸ hwaits, fun _ => ⟨ht.busy, ht.done⟩⟩

/-! ## A step while BUSY = 1 (R231, R239, R254) -/

/-- While BUSY = 1 a step leaves the operation as it is, or is reset, or takes the awaited answer. -/
theorem step_of_busy (h : s.Inv) (hb : s.status.busy = true) (hx : step s = .next t) :
    (t.status = s.status ∧ t.phase = s.phase) ∨ (∃ k u, t = State.applyReset k u) ∨ ∃ rest, Answered rest s t := by
  cases hi : s.inputs with
  | nil =>
    obtain rfl := Host.Outcome.next.inj ((step_of_no_inputs hi).symm.trans hx)
    exact .inl ⟨rfl, rfl⟩
  | cons i rest =>
    have hadmits : s.admits i = true := (stepsExactlyWhereAdmitted s i rest h hi).mpr ⟨t, hx⟩
    have answered (hw : s.awaits i = true) : ∃ rest, Answered rest s t := by
      obtain ⟨u, hu, ha⟩ := step_answered h hb hi hw
      obtain rfl := Host.Outcome.next.inj (hu.symm.trans hx)
      exact ⟨rest, ha⟩
    cases i with
    | read n =>
      rw [step_read hi] at hx
      obtain ⟨_, _, -, -, rfl⟩ := hostRead_next.mp hx
      exact .inl ⟨rfl, rfl⟩
    | reset k =>
      rw [step_without_word hi (by simp [State.fetch, State.issued, State.delivered, hi])] at hx
      cases hx
      exact .inr (.inl ⟨k, _, rfl⟩)
    | arrive b =>
      rw [step_without_word hi (by simp [State.fetch, State.issued, State.delivered, hi])] at hx
      cases hx
      exact .inl ⟨rfl, rfl⟩
    | srcOk | ciphAnswer | dcmpAnswer => exact .inr (.inr (answered hadmits))
    | srcFail d k =>
      obtain ⟨n, ho⟩ : ∃ n, s.out = some (.src n) := by
        rw [step_srcFail hi] at hx
        obtain ⟨n, ho, -⟩ := answerSourceFail_next.mp hx
        exact ⟨n, ho⟩
      exact .inr (.inr (answered (by simpa [State.awaits] using Inv.phase_of_src h ho)))
    | write | inspectResolve => simp [State.admits, hb] at hadmits
    | memRead sp | memWrite sp => cases sp <;> simp [State.admits, hb] at hadmits

theorem Phase.mayFollow_self (p : Phase) : p.mayFollow p = true := by
  cases p <;> rfl

theorem Phase.mayFollow_idle (p : Phase) : p.mayFollow .idle = true := by
  cases p <;> rfl

/-- Settles O41: from IDLE a step leads to a first wait or nowhere; from a wait, to what the awaited answer makes of it, or
to IDLE by reset. -/
theorem phaseTransitionsOnlyAsListed : Obligations.PhaseTransitionsOnlyAsListed := by
  intro s t h hx
  cases hb : s.status.busy
  case false =>
    have hidle := Inv.idle h hb
    have hpay : t.phase ≠ .payRead := by
      cases step_sourceAsked h hx with
      | header _ ht => simp [ht]
      | payload hs => simp [hs] at hidle
      | stays ht => simp [ht, hidle]
      | leaves ht => exact ht.2
    rw [hidle]
    cases ht : t.phase with
    | payRead => exact absurd ht hpay
    | idle | hdrRead | ciphWait | dcmpWait => rfl
  case true =>
    obtain ⟨-, hp⟩ | ⟨k, u, rfl⟩ | ⟨rest, ha⟩ := step_of_busy h hb hx
    · exact hp ▸ Phase.mayFollow_self _
    · exact Phase.mayFollow_idle _
    · cases ha with
      | asks _ _ hphase => obtain ⟨hs, ht⟩ | ⟨hs, ht⟩ := hphase <;> rw [hs, ht] <;> rfl
      | succeeds _ ht => exact ht.phase ▸ Phase.mayFollow_idle _
      | fails _ ht => exact ht.phase ▸ Phase.mayFollow_idle _

/-- R24, R33: a DECODE in progress waits with PKT_VALID = 0, every other operation with RES_VALID = 0. -/
theorem Inv.own_output_invalid (h : s.Inv) (hb : s.status.busy = true) :
    (s.oper = some .decode → s.status.pktValid = false) ∧ (s.oper ≠ some .decode → s.status.resValid = false) := by
  have hbusy : s.phase ≠ .idle := h.busyPhase.mp hb
  have hw := h.waiting
  unfold State.WaitOk at hw
  generalize s.phase = p at hw hbusy
  cases p with
  | idle => exact absurd rfl hbusy
  | hdrRead =>
    obtain ⟨-, ho, hpkt⟩ := hw
    exact ⟨fun _ => hpkt, fun hne => absurd ho hne⟩
  | payRead =>
    obtain ⟨-, ho, hpkt, -⟩ := hw
    exact ⟨fun _ => hpkt, fun hne => absurd ho hne⟩
  | ciphWait =>
    obtain ⟨hres, -, ⟨ho, -⟩ | ⟨ho, -⟩⟩ := hw <;> exact ⟨by simp [ho], fun _ => hres⟩
  | dcmpWait =>
    obtain ⟨hres, ho, -⟩ := hw
    exact ⟨by simp [ho], fun _ => hres⟩

/-- Settles O43: of the steps of a busy block only a failing answer ends with ERR = 1, and it leaves the operation's own
output group as the wait has held it, invalid. -/
theorem failureLeavesNoPartialResult : Obligations.FailureLeavesNoPartialResult := by
  intro s t h hb hx herr
  obtain ⟨hpkt, hres⟩ := Inv.own_output_invalid h hb
  have failed : SamePacket s t ∧ SameResult s t := by
    obtain ⟨hstatus, -⟩ | ⟨k, u, rfl⟩ | ⟨rest, ha⟩ := step_of_busy h hb hx
    · rw [hstatus, (Inv.accepted h hb).err] at herr
      cases herr
    · cases herr
    · cases ha with
      | asks _ hok => rw [hok] at herr; cases herr
      | succeeds _ ht => rw [ht.err] at herr; cases herr
      | fails _ _ hpacket hresult => exact ⟨hpacket, hresult⟩
  obtain ⟨hpacket, hresult⟩ := failed
  exact ⟨fun ho => hpacket.valid.trans (hpkt ho),
    fun ho => ⟨hresult.valid.trans (hres ho), hresult.rlen.trans (h.noResult (hres ho)), hpacket⟩⟩

end Sys2Proof.Machine
end

section
/-! SUPPORT. Reset from any state (R250, R251), and what a host may do while BUSY = 1 (R38, R192, R254). -/

open Sys2Proof

namespace Sys2Proof.Machine

variable {s : State} {rest : List Input}

/-! ## Reset (R250, R251) -/

theorem step_reset {k : Nat} (hi : s.inputs = .reset k :: rest) :
    step s = .next (State.applyReset k { s with inputs := rest }) :=
  step_without_word hi (by simp [State.fetch, State.issued, State.delivered, hi])

/-- Settles O2: what OUT holds decides whether the source has consumed bytes of the stream. -/
theorem resetActRestoresResetState : Obligations.ResetActRestoresResetState := by
  intro s k rest hi
  rw [step_reset hi, State.applyReset]
  refine ⟨fun n ho => ?source, fun ho => ?other⟩
  case source => rw [State.abandonedStream_of_source { s with inputs := rest } ho]
  case other => rw [State.abandonedStream_of_other { s with inputs := rest } ho]

/-! ## Host accesses while BUSY = 1 (R38, R192, R254) -/

/-- R230: no fault is architected, so an outcome that is no next state is a refusal. -/
theorem refused_of_not_steps {o : Host.Outcome State Fault Refusal} (h : ¬ Steps o) : ∃ r, o = .refused r := by
  cases o with
  | next t => exact absurd ⟨t, rfl⟩ h
  | fault e => cases e
  | refused r => exact ⟨r, rfl⟩

theorem hostRead_status (s : State) :
    hostRead 0x01#8 s = .next { s with obs := .read 0x01#8 (.num s.status.word.toNat) :: s.obs } :=
  hostRead_next.mpr ⟨.status, _, Reg.ofNumber_number .status, by simp [State.readReg, State.regValue], rfl⟩

theorem hostRead_steps_of_busy (hb : s.status.busy = true) {n : BitVec 8} (h : Steps (hostRead n s)) : n = 0x01#8 := by
  obtain ⟨t, ht⟩ := h
  obtain ⟨r, v, hr, hv, -⟩ := hostRead_next.mp ht
  have hstatus : r = .status := by simpa [hb] using (readReg_ok r).mp ⟨v, hv⟩
  rw [← Reg.ofNumber_eq_some.mp hr, hstatus, Reg.number]

/-- R38, R254: BUSY = 0 is a condition of every host access but the read of STATUS. -/
theorem hostAccess_steps_of_busy {i : Input} (hb : s.status.busy = true) (hi : s.inputs = i :: rest)
    (ha : i.isHostAccess = true) (h : Steps (step s)) : i = .read 0x01#8 := by
  have hbusy : s.status.busy ≠ false := by simp [hb]
  cases i with
  | read n =>
    rw [step_read hi] at h
    rw [hostRead_steps_of_busy (s := { s with inputs := rest }) hb h]
  | write n v => simpa [State.admits, hb] using (step_write_steps hi).mp h
  | inspectResolve => simpa [State.admits, hb] using (step_inspectResolve_steps hi).mp h
  | memRead sp a n =>
    rw [step_memRead hi] at h
    obtain ⟨t, ht⟩ := h
    obtain ⟨hidle, -⟩ := hostMemRead_next.mp ht
    exact absurd hidle hbusy
  | memWrite sp a v =>
    rw [step_memWrite hi] at h
    obtain ⟨t, ht⟩ := h
    obtain ⟨hidle, -⟩ := hostMemWrite_next.mp ht
    exact absurd hidle hbusy
  | reset | arrive | srcOk | srcFail | ciphAnswer | dcmpAnswer => cases ha

/-- Settles O47: the read of STATUS answers in every state, and no other host access has a step while BUSY = 1. -/
theorem busyBlockAdmitsOnlyStatusRead : Obligations.BusyBlockAdmitsOnlyStatusRead := by
  intro s i rest hb hi ha
  refine ⟨?status, fun hne => refused_of_not_steps fun h => hne (hostAccess_steps_of_busy hb hi ha h)⟩
  case status =>
    rintro rfl
    rw [step_read hi, hostRead_status]

end Sys2Proof.Machine
end
